-- ==== Sys2Proof/Word.lean ====
section
/-! DEFINITION. Word.lean: the one machine word of the part, the byte of a link frame, and the 16-bit word of the frame check. -/

namespace Sys2Proof

/-- One byte of a frame on a station link (spec 11, Frames). -/
abbrev Byte := BitVec 8

/-- The 16-bit frame check (spec 11 R172). -/
abbrev Word16 := BitVec 16

end Sys2Proof
end

