-- ==== Sys2Proof/Config.lean ====
section
/-! DEFINITION. Config.lean: the figures the manual fixes (capacities, bounds, timer periods), and the free values:
constants without a body for what the manual leaves open. -/

namespace Sys2Proof.Config

/-! ### Capacities -/

/-- R1. -/
def maxTrains : Nat := 24
/-- R2. -/
def maxTrolleys : Nat := 160
/-- R3. -/
def maxLots : Nat := 384
/-- R5. -/
def maxQueue : Nat := 128
/-- R18. -/
def maxPicks : Nat := 24
/-- R49. -/
def maxCandidates : Nat := 8
/-- R84. -/
def maxOrders : Nat := 16
/-- R97. -/
def maxBuyers : Nat := 1024
/-- R106: hall desk indices are 0 to 511. -/
def deskCount : Nat := 512
/-- R119. -/
def maxLines : Nat := 4096
/-- R121. -/
def maxInvoices : Nat := 256
/-- R116, R121. -/
def maxInvoiceLines : Nat := 48
/-- R118: the store is low when fewer free lines than this are left. -/
def storeLowFree : Nat := 64
/-- R152. -/
def inboundCap : Nat := 16
/-- R153: WAIT is made pending at this many waiting messages. -/
def waitMark : Nat := 12
/-- R153: GO is made pending at this many or fewer. -/
def goMark : Nat := 4
/-- R159. -/
def urgentCap : Nat := 24
/-- R159. -/
def bulkCap : Nat := 32
/-- R154: the longest message that is handed on, in bytes. -/
def maxMessage : Nat := 160

/-! ### Bounds of values -/

/-- R68: the highest price, in mils. -/
def maxPrice : Nat := 9999999
/-- R97, R99: the highest credit limit, in cents. -/
def maxCredit : Nat := 1000000000000
/-- R26, R84, R82, R122, R140: the counts that go from 65,535 to 1. -/
def maxCount16 : Nat := 65535
/-- R34: the position that ends a lot. -/
def positionLimit : Nat := 65535
/-- R162: each statistics counter is held here. -/
def maxCount32 : Nat := 4294967295
/-- R124: the award time is held in 32 bits. -/
def awardTimeWrap : Nat := 4294967296

/-! ### Timer periods, in milliseconds -/

/-- R150. -/
def lossPeriod : Nat := 400
/-- R161. -/
def keepPeriod : Nat := 100
/-- R142: the period of tier STEADY. -/
def steadyPeriod : Nat := 250
/-- R142: the period of tier SLOW. -/
def slowPeriod : Nat := 1000
/-- R142: the period of tier DORMANT. -/
def dormantPeriod : Nat := 5000
/-- R142: a clock is SLOW from this time after its last change. -/
def slowAfter : Nat := 10000
/-- R142: a clock is DORMANT from this time after its last change. -/
def dormantAfter : Nat := 60000
/-- R104: the desk age when the ANNOUNCE carries none, in minutes. -/
def defaultDeskAge : Nat := 30
/-- R111: one minute of desk age. -/
def minute : Nat := 60000

/-! ### Free values -/

/-- FREE VALUE (log 16). R173 says that a TAG among a malformed message's qualifiers is echoed and does not say which
of several: this picks one of the two or more given, by its place, as the part may. -/
opaque whichTag : List Nat → Nat

/-- FREE VALUE (log 17). R63 and R169 give every refusal and copy an origin, PRESSED or ORDER, and do not say which a
refused placement has (it is a bid from a desk that asks for an order). True: PRESSED. -/
opaque placementIsPressed : Bool

/-- FREE VALUE (log 11). After an award that leaves units R71 has the current price unchanged in READY until the next run start; R25 and
R68 have it 0 in READY; no rule puts one before the other. True: it is unchanged. -/
opaque readyKeepsPrice : Bool

end Sys2Proof.Config
end

