-- ==== Sys2Proof/Syntax.lean ====
section
/-! DEFINITION. Syntax.lean: the commands of the part, one constructor for each row of spec/opcode_table.json, with the
names of clocks and links they carry. The table gives its rows no operands: those below are the model's (log 6). -/

namespace Sys2Proof

/-- Clocks are numbered 1 to 4 (spec 00, Numbering). -/
inductive ClockId where
  | c1 | c2 | c3 | c4
  deriving DecidableEq, Repr

/-- Station links are numbered 0 to 7 (spec 00, Numbering). -/
inductive LinkId where
  | l0 | l1 | l2 | l3 | l4 | l5 | l6 | l7
  deriving DecidableEq, Repr

/-- Who made a bid or outcome report: the Account Unit, or the Clock Unit of a clock (R44, R45). -/
inductive ReportSource where
  | account
  | clock (c : ClockId)
  deriving DecidableEq, Repr

/-- A command: one whole, indivisible step of the part (spec 95). A message's row names the link whose inbound head is
taken; a hand-over's row names the clock whose Clock Unit sends or takes it; an expiry names whose timer ends. -/
inductive Instr where
  -- Links
  | reset
  | resetPinHeldLow
  | lineActivity (l : LinkId)
  | frameReceived (l : LinkId) (bytes : List Byte)
  | keepMarker (l : LinkId)
  | waitMarker (l : LinkId)
  | goMarker (l : LinkId)
  | lossTimerExpiry (l : LinkId)
  | keepTimerExpiry (l : LinkId)
  | frameSent (l : LinkId)
  | unknownKind (l : LinkId)
  | announce (l : LinkId)
  -- Logistics
  | trainHeader (l : LinkId)
  | trolleyEntry (l : LinkId)
  | trolleyArrived (l : LinkId)
  | lotWithdraw (l : LinkId)
  | trainWithdraw (l : LinkId)
  | trolleyDeparted (l : LinkId)
  | slotQuery (l : LinkId)
  | lotDoneReport (c : ClockId)
  -- The clock run
  | headLotPresented (c : ClockId)
  | noPresentedHead (c : ClockId)
  | lotWithdrawn (c : ClockId)
  | clockConfigure (l : LinkId)
  | start (l : LinkId)
  | holdClock (l : LinkId)
  | resume (l : LinkId)
  | withdrawLot (l : LinkId)
  | strideEnd (c : ClockId)
  | windowExpiry (c : ClockId)
  | restartDelayEnd (c : ClockId)
  -- Bids and orders
  | bid (l : LinkId)
  | admittedBid (c : ClockId)
  | placement (c : ClockId)
  | cancelOrder (l : LinkId)
  | cancelRequest (c : ClockId)
  | buyerNotice (c : ClockId)
  | endRequest (c : ClockId)
  | hallNoticeOpen (c : ClockId)
  | hallNoticeClosing (c : ClockId)
  | hallNoticeClosed (c : ClockId)
  | reservation (c : ClockId)
  | grant (c : ClockId)
  | refuse (c : ClockId)
  | deliverOutcome (c : ClockId)
  | orderEnded (c : ClockId)
  | activityReport (c : ClockId)
  -- Desks
  | login (l : LinkId)
  | logout (l : LinkId)
  | present (l : LinkId)
  | ageExpiry (desk : Nat)
  | snapshotRequest (l : LinkId)
  -- Settlement
  | buyerSet (l : LinkId)
  | buyerRemove (l : LinkId)
  | creditLimit (l : LinkId)
  | block (l : LinkId)
  | unblock (l : LinkId)
  | tariffLoad (l : LinkId)
  | closeInvoice (l : LinkId)
  | settled (l : LinkId)
  -- Supervision
  | openDay (l : LinkId)
  | closeDay (l : LinkId)
  | statisticsRequest (l : LinkId)
  -- Display
  | stateEvent (c : ClockId)
  | strideEvent (c : ClockId)
  | awardEvent (c : ClockId)
  | divisorEvent (c : ClockId)
  | supplyUnitEvent (c : ClockId)
  | frameTimerExpiry (c : ClockId)
  | bidCopy (src : ReportSource)
  | outcomeCopy (src : ReportSource)
  deriving DecidableEq, Repr

end Sys2Proof
end

