-- ==== Sys2Proof/WellFormed.lean ====
section
/-! DEFINITION. WellFormed.lean: the checks on a command's operands that its type does not make already. Clocks and
links are names, so only a hall desk index can lie outside its range. -/

namespace Sys2Proof

/-- A command is well formed when the hall desk it names, if any, is one of the 512 (R106). Every other operand is
well formed by its type; a received frame may hold any bytes at all, since the part judges them itself (R152). -/
def Instr.wellFormed : Instr → Bool
  | .ageExpiry desk => decide (desk < Config.deskCount)
  | _ => true

/-- The same as a proposition. -/
abbrev Instr.WellFormed (i : Instr) : Prop := i.wellFormed = true

end Sys2Proof
end

