-- ==== Sys2Proof/Decode.lean ====
section
/-! DEFINITION. Decode.lean: the command a word of the opcode table's bits spells. No row of spec/opcode_table.json gives
bits, so no word spells one (log 6). -/

namespace Sys2Proof

/-- spec/opcode_table.json gives every row "fields": [] and no pattern: there is no command word to read. -/
def decodeTableWord (_nbits _w : Nat) : Option Instr := none

end Sys2Proof
end

