-- ==== Sys2Proof/Machine/Collections.lean ====
section
/-! DEFINITION. Collections.lean: the containers of the state: a value per clock, a value per link, and a table keyed by
a number in one canonical form (keys strictly rising), with their operations. -/

namespace Sys2Proof.Machine

/-! ### A value per clock -/

/-- One value for each of the four clocks. -/
structure PerClock (α : Type) where
  c1 : α
  c2 : α
  c3 : α
  c4 : α
  deriving DecidableEq, Repr

/-- The same value for every clock. -/
def PerClock.const {α : Type} (a : α) : PerClock α := ⟨a, a, a, a⟩

/-- The value of one clock. -/
def PerClock.get {α : Type} (v : PerClock α) : ClockId → α
  | .c1 => v.c1
  | .c2 => v.c2
  | .c3 => v.c3
  | .c4 => v.c4

/-- Change the value of one clock. -/
def PerClock.upd {α : Type} (v : PerClock α) (c : ClockId) (f : α → α) : PerClock α :=
  match c with
  | .c1 => { v with c1 := f v.c1 }
  | .c2 => { v with c2 := f v.c2 }
  | .c3 => { v with c3 := f v.c3 }
  | .c4 => { v with c4 := f v.c4 }

/-- Change every value alike. -/
def PerClock.map {α β : Type} (v : PerClock α) (f : α → β) : PerClock β := ⟨f v.c1, f v.c2, f v.c3, f v.c4⟩

/-- The four values in clock order. -/
def PerClock.toList {α : Type} (v : PerClock α) : List α := [v.c1, v.c2, v.c3, v.c4]

/-- The clocks in order, 1 to 4. -/
def clockIds : List ClockId := [.c1, .c2, .c3, .c4]

/-- The number of a clock, 1 to 4 (spec 00, Numbering). -/
def clockNumber : ClockId → Nat
  | .c1 => 1
  | .c2 => 2
  | .c3 => 3
  | .c4 => 4

/-- The clock of a number, none outside 1 to 4. -/
def clockOf : Nat → Option ClockId
  | 1 => some .c1
  | 2 => some .c2
  | 3 => some .c3
  | 4 => some .c4
  | _ => none

/-! ### A value per link -/

/-- One value for each of the eight links. -/
structure PerLink (α : Type) where
  l0 : α
  l1 : α
  l2 : α
  l3 : α
  l4 : α
  l5 : α
  l6 : α
  l7 : α
  deriving DecidableEq, Repr

/-- The same value for every link. -/
def PerLink.const {α : Type} (a : α) : PerLink α := ⟨a, a, a, a, a, a, a, a⟩

/-- The value of one link. -/
def PerLink.get {α : Type} (v : PerLink α) : LinkId → α
  | .l0 => v.l0
  | .l1 => v.l1
  | .l2 => v.l2
  | .l3 => v.l3
  | .l4 => v.l4
  | .l5 => v.l5
  | .l6 => v.l6
  | .l7 => v.l7

/-- Change the value of one link. -/
def PerLink.upd {α : Type} (v : PerLink α) (l : LinkId) (f : α → α) : PerLink α :=
  match l with
  | .l0 => { v with l0 := f v.l0 }
  | .l1 => { v with l1 := f v.l1 }
  | .l2 => { v with l2 := f v.l2 }
  | .l3 => { v with l3 := f v.l3 }
  | .l4 => { v with l4 := f v.l4 }
  | .l5 => { v with l5 := f v.l5 }
  | .l6 => { v with l6 := f v.l6 }
  | .l7 => { v with l7 := f v.l7 }

/-- The links in order, 0 to 7. -/
def linkIds : List LinkId := [.l0, .l1, .l2, .l3, .l4, .l5, .l6, .l7]

/-- The number of a link, 0 to 7. -/
def linkNumber : LinkId → Nat
  | .l0 => 0
  | .l1 => 1
  | .l2 => 2
  | .l3 => 3
  | .l4 => 4
  | .l5 => 5
  | .l6 => 6
  | .l7 => 7

/-- The link of a number, none above 7. -/
def linkOf : Nat → Option LinkId
  | 0 => some .l0
  | 1 => some .l1
  | 2 => some .l2
  | 3 => some .l3
  | 4 => some .l4
  | 5 => some .l5
  | 6 => some .l6
  | 7 => some .l7
  | _ => none

/-! ### Tables keyed by a number -/

/-- A table of records keyed by a number, kept with its keys strictly rising, so that equal tables are equal data. -/
abbrev Table (α : Type) := List (Nat × α)

/-- The record held under a key. -/
def Table.find {α : Type} (t : Table α) (k : Nat) : Option α :=
  match t with
  | [] => none
  | (i, v) :: rest => if i = k then some v else Table.find rest k

/-- Whether a key is held. -/
def Table.has {α : Type} (t : Table α) (k : Nat) : Bool := (Table.find t k).isSome

/-- Put a record under a key, in its place in the order, in place of any held there. -/
def Table.put {α : Type} (t : Table α) (k : Nat) (v : α) : Table α :=
  match t with
  | [] => [(k, v)]
  | (i, w) :: rest =>
    if k < i then (k, v) :: (i, w) :: rest
    else if k = i then (k, v) :: rest
    else (i, w) :: Table.put rest k v

/-- Free the record under a key. -/
def Table.del {α : Type} (t : Table α) (k : Nat) : Table α := t.filter (fun e => decide (e.1 ≠ k))

/-- Change the record under a key, when there is one. -/
def Table.modify {α : Type} (t : Table α) (k : Nat) (f : α → α) : Table α :=
  t.map (fun e => if e.1 = k then (e.1, f e.2) else e)

/-- Change every record alike. -/
def Table.mapAll {α : Type} (t : Table α) (f : α → α) : Table α := t.map (fun e => (e.1, f e.2))

/-- Keep the records that pass a test. -/
def Table.keep {α : Type} (t : Table α) (f : α → Bool) : Table α := t.filter (fun e => f e.2)

/-- The records, in key order. -/
def Table.vals {α : Type} (t : Table α) : List α := t.map (·.2)

/-- The keys, in order. -/
def Table.keys {α : Type} (t : Table α) : List Nat := t.map (·.1)

/-- The canonical form: keys strictly rising. -/
def Table.rising {α : Type} : Table α → Bool
  | [] => true
  | [_] => true
  | (i, _) :: (j, w) :: rest => decide (i < j) && Table.rising ((j, w) :: rest)

/-- The lowest key from k on that a table with rising keys does not hold (R119: the lowest-numbered free place). -/
def Table.lowestFree {α : Type} (t : Table α) (k : Nat) : Nat :=
  match t with
  | [] => k
  | (i, _) :: rest => if i = k then Table.lowestFree rest (k + 1) else k

/-! ### Counts -/

/-- A count that goes from 65,535 to 1 (R26, R82, R84, R122, R140). -/
def next16 (n : Nat) : Nat := if n = Config.maxCount16 then 1 else n + 1

/-- A 32-bit counter held at its top (R162). -/
def count32 (n : Nat) : Nat := if Config.maxCount32 ≤ n then Config.maxCount32 else n + 1

/-- Hold a value within a range (spec 00, Clamping). -/
def clampTo (lo hi v : Nat) : Nat := if v < lo then lo else if hi < v then hi else v

end Sys2Proof.Machine
end

