-- ==== Sys2Proof/Machine/State.lean ====
section
/-! DEFINITION. State.lean: every piece of state the manual gives the part, as plain data, the reasons a step can stop, and
the state right after reset. The list with the rule of each piece is INVENTORY.md's '## State'. -/

namespace Sys2Proof.Machine

/-! ### Reasons a step can stop -/

/-- No command of the part ends in a machine fault: the manual answers every bad message with a refusal MESSAGE, which is the
command's effect on the state. So this type has no constructor. -/
inductive Fault where
  deriving DecidableEq, Repr

/-- Why a step has no meaning. -/
inductive Refusal where
  /-- Raised by exec alone, for a command that has no meaning yet (none is left). Safe: the model stops. -/
  | notModelled (mnemonic : String)
  deriving DecidableEq, Repr

/-! ### Names of states, causes and reasons -/

/-- R150. -/
inductive LinkState where
  | down | syncing | waiting | up
  deriving DecidableEq, Repr

/-- R156: the role a link serves; a CONSOLE serves one clock. -/
inductive Role where
  | logistics | console (c : ClockId) | deskGroup | settlement | display | supervision
  deriving DecidableEq, Repr

/-- R157: the outbound weight, urgent messages to one bulk message, or urgent-first. -/
inductive Weight where
  | w4 | w8 | w16 | urgentFirst
  deriving DecidableEq, Repr

/-- The clock states (spec 02, and R175 for their codes). -/
inductive ClockState where
  | idle | ready | running | floor | window | awarding | restart | held
  deriving DecidableEq, Repr

/-- R163. -/
inductive HallState where
  | closed | opened | closing
  deriving DecidableEq, Repr

/-- R25: why a clock is held, or is to be held. -/
inductive HoldCause where
  | console | consoleLost
  deriving DecidableEq, Repr

/-- R25: the states a held clock returns to. -/
inductive HeldFrom where
  | running | floor | restart
  deriving DecidableEq, Repr

/-- R1. -/
inductive TrainState where
  | filling | admitted
  deriving DecidableEq, Repr

/-- R2. -/
inductive TrolleyState where
  | staged | announced | presented | departing
  deriving DecidableEq, Repr

/-- R3. -/
inductive LotState where
  | staged | announced | presented | selling | soldOut | closedUnsold | withdrawn
  deriving DecidableEq, Repr

/-- R121. -/
inductive InvoiceState where
  | opened | closed | sending | awaiting
  deriving DecidableEq, Repr

/-- R125. -/
inductive CloseCause where
  | linesFull | requested | dayClosed
  deriving DecidableEq, Repr

/-- R141, R142. -/
inductive Tier where
  | fast | steady | slow | dormant
  deriving DecidableEq, Repr

/-- The refusal causes (spec 11, Refusal causes, in the order of their codes). -/
inductive Cause where
  | malformed | notRole | roleTaken | overlap | already | busy | noRoom | incomplete | unknownTrolley
  | wrongClock | occupied | unknownLot | unknownTrain | noLot | notRunning | notHeld | hallClosed
  | unmappedDesk | notLoggedIn | blocked | notMember | wrongRun | late | duplicate | outbid | picksFull
  | credit | storeFull | noInvoice | withdrawn | ordersFull | noOrder | unknownBuyer | noneOpen
  | unknownInvoice | noTariff
  deriving DecidableEq, Repr

/-- Reasons of LOGGED OUT (spec 11). -/
inductive LogoutReason where
  | logout | moved | replaced | aged | removed | dayClosed
  deriving DecidableEq, Repr

/-- Reasons of ORDER ENDED (R96). -/
inductive EndReason where
  | complete | credit | logout | cancelled | changed | dayClosed | notMember | replaced
  deriving DecidableEq, Repr

/-- R29: the three done states a lot is closed with. -/
inductive LotOutcome where
  | soldOut | closedUnsold | withdrawn
  deriving DecidableEq, Repr

/-- R28, R29: who made a lot done. -/
inductive LotOrigin where
  | logistics | console
  deriving DecidableEq, Repr

/-- The eight parameters of a clock's configuration, in the order of R23's table. -/
inductive Param where
  | stridePeriod | priceStep | stopWindow | lagLimit | floorDwell | restartMarkup | restartDelay | frameDivisor
  deriving DecidableEq, Repr

/-- R82: the items of a tariff entry. -/
inductive TariffItem where
  | rate | container | lineFee
  deriving DecidableEq, Repr

/-! ### Records of the Supply Unit -/

/-- A set of clocks. -/
abbrev ClockSet := PerClock Bool

/-- R18. -/
structure Pick where
  buyer : Nat
  point : Nat
  units : Nat
  deriving DecidableEq, Repr

/-- R1. `clamped` is the count of clamped lots that TRAIN ACCEPTED reports (R9). -/
structure Train where
  clock : ClockId
  stated : Nat
  taken : Nat
  state : TrainState
  live : Nat
  tag : Option Nat
  clamped : Nat
  deriving DecidableEq, Repr

/-- R2. -/
structure Trolley where
  train : Nat
  clock : ClockId
  place : Nat
  lots : List Nat
  state : TrolleyState
  picks : List Pick
  deriving DecidableEq, Repr

/-- R3. -/
structure Lot where
  trolley : Nat
  clock : ClockId
  grower : Nat
  product : Nat
  cls : Nat
  announced : Nat
  stems : Nat
  minPurchase : Nat
  minPrice : Nat
  suggested : Nat
  remaining : Nat
  sold : Nat
  state : LotState
  ceiling : Option Nat
  deriving DecidableEq, Repr

/-- The state of the Supply Unit (spec 01). -/
structure Supply where
  trains : Table Train
  trolleys : Table Trolley
  lots : Table Lot
  queues : PerClock (List Nat)
  slots : PerClock (Option Nat)
  discard : Option Nat
  deriving DecidableEq, Repr

/-! ### Records of a Clock Unit -/

/-- R23. -/
structure ClockConfig where
  stridePeriod : Nat
  priceStep : Nat
  stopWindow : Nat
  lagLimit : Nat
  floorDwell : Nat
  restartMarkup : Nat
  restartDelay : Nat
  frameDivisor : Nat
  deriving DecidableEq, Repr

/-- R25, R59: the last award of the lot. -/
structure LastAward where
  buyer : Nat
  units : Nat
  price : Nat
  deriving DecidableEq, Repr

/-- R25. -/
structure RunRecord where
  lot : Option Nat
  run : Nat
  startPrice : Option Nat
  step : Option Nat
  minPrice : Option Nat
  position : Nat
  price : Nat
  dwell : Nat
  restartPrice : Option Nat
  heldFrom : Option HeldFrom
  holdCause : Option HoldCause
  pendingHold : Bool
  pendingWithdrawal : Bool
  lastAward : Option LastAward
  hallView : HallState
  deriving DecidableEq, Repr

/-- R84, R106: a link and a local desk on it. -/
structure DeskTarget where
  link : LinkId
  desk : Nat
  deriving DecidableEq, Repr

/-- R49: where a candidate comes from. -/
inductive CandOrigin where
  | pressed (target : DeskTarget) (tag : Option Nat)
  | order (number : Nat)
  deriving DecidableEq, Repr

/-- R49. -/
structure Candidate where
  buyer : Nat
  point : Nat
  origin : CandOrigin
  position : Nat
  asked : Nat
  quantity : Nat
  arrival : Nat
  deriving DecidableEq, Repr

/-- R84. -/
structure Order where
  number : Nat
  buyer : Nat
  product : Nat
  limit : Nat
  asked : Nat
  count : Nat
  untilChange : Bool
  point : Nat
  blocked : Bool
  target : DeskTarget
  fired : Bool
  deriving DecidableEq, Repr

/-- The state of one Clock Unit (spec 02, 03, 05). A timer holds the time-base value at which it ends. `tried` counts the
candidates already refused in the decision, and `inFlight` is the award price of the reservation in flight (R56, R57). -/
structure ClockUnit where
  state : ClockState
  config : ClockConfig
  run : RunRecord
  strideTimer : Option Nat
  windowTimer : Option Nat
  restartTimer : Option Nat
  candidates : List Candidate
  arrivals : Nat
  tried : Nat
  inFlight : Option Nat
  orders : List Order
  nextOrder : Nat
  deriving DecidableEq, Repr

/-! ### Records of the Account Unit -/

/-- R122: an invoice number. -/
structure InvoiceNumber where
  day : Nat
  buyer : Nat
  sequence : Nat
  deriving DecidableEq, Repr

/-- R97. -/
structure Buyer where
  limit : Nat
  exposure : Nat
  lines : Nat
  members : ClockSet
  point : Nat
  blocked : Bool
  desk : Option Nat
  openInvoice : Option InvoiceNumber
  sequence : Nat
  orderMark : Bool
  deriving DecidableEq, Repr

/-- R106: a bound desk. -/
structure Binding where
  buyer : Nat
  activity : Nat
  deriving DecidableEq, Repr

/-- R104: one region of a map. -/
structure Region where
  size : Nat
  base : Nat
  deriving DecidableEq, Repr

/-- R104: what an UP DESK GROUP link's ANNOUNCE has installed. -/
structure DeskGroup where
  map : List Region
  defaultClock : ClockId
  aging : Bool
  age : Nat
  deriving DecidableEq, Repr

/-- R81: the charges of one product class. -/
structure TariffEntry where
  rate : Nat
  container : Nat
  lineFee : Nat
  deriving DecidableEq, Repr

/-- R120: a line; its id is its place in the store. -/
structure Line where
  invoice : InvoiceNumber
  number : Nat
  lot : Nat
  clock : ClockId
  run : Nat
  product : Nat
  grower : Nat
  cls : Nat
  units : Nat
  stems : Nat
  price : Nat
  goods : Nat
  commission : Nat
  container : Nat
  lineFee : Nat
  total : Nat
  generation : Nat
  awardTime : Nat
  deriving DecidableEq, Repr

/-- R121. `lines` lists the line ids in award order. -/
structure Invoice where
  number : InvoiceNumber
  state : InvoiceState
  lines : List Nat
  total : Nat
  cause : Option CloseCause
  sentBefore : Bool
  deriving DecidableEq, Repr

/-- R129: the SENDING invoice, the lines of it placed already (the header counts as none placed while `headerDue`), and the
sent-before mark as it stood before this send began (R130). -/
structure Cursor where
  invoice : InvoiceNumber
  headerDue : Bool
  placed : Nat
  markBefore : Bool
  deriving DecidableEq, Repr

/-- R163. -/
structure Hall where
  state : HallState
  day : Nat
  mark : Option Nat
  active : PerClock Bool
  answered : PerClock Bool
  deriving DecidableEq, Repr

/-- The state of the Account Unit (spec 04, 06, 07, 10). -/
structure Account where
  hall : Hall
  buyers : Table Buyer
  desks : Table Binding
  groups : PerLink (Option DeskGroup)
  tariff : Option (List TariffEntry)
  generation : Nat
  lines : Table Line
  invoices : List Invoice
  openList : List InvoiceNumber
  settleQueue : List InvoiceNumber
  cursor : Option Cursor
  storeLow : Bool
  deriving DecidableEq, Repr

/-! ### Records of the Display Unit -/

/-- R136. -/
structure View where
  state : ClockState
  run : Nat
  lot : Nat
  product : Nat
  grower : Nat
  cls : Nat
  remaining : Nat
  stems : Nat
  minPurchase : Nat
  minPrice : Nat
  position : Nat
  price : Nat
  lastAward : Option LastAward
  nextLot : Nat
  deriving DecidableEq, Repr

/-- R140: a CLOCK FRAME. -/
structure Frame where
  clock : ClockId
  sequence : Nat
  state : ClockState
  lot : Nat
  product : Nat
  grower : Nat
  cls : Nat
  remaining : Nat
  stems : Nat
  minPurchase : Nat
  run : Nat
  position : Nat
  price : Nat
  atFloor : Bool
  lastAward : Option LastAward
  tier : Tier
  deriving DecidableEq, Repr

/-- The Display Unit's state of one clock (spec 08): view, last composed frame, cadence state and frame sequence. -/
structure DisplayClock where
  view : View
  frame : Frame
  tier : Tier
  lastChange : Nat
  frameTimer : Option Nat
  strideCount : Nat
  divisor : Nat
  sequence : Nat
  deriving DecidableEq, Repr

/-- R145: what one DESK GROUP link has not been told of one clock. -/
structure Accumulator where
  units : Nat
  awards : Nat
  changed : Bool
  deriving DecidableEq, Repr

/-- The state of the Display Unit (spec 08, and R169 for the mirror). -/
structure Display where
  clocks : PerClock DisplayClock
  sets : PerLink (Option (PerClock Accumulator))
  clockSets : PerLink (Option ClockSet)
  mirror : Option ClockSet
  deriving DecidableEq, Repr

/-! ### Hand-overs between units -/

/-- R44: an admitted bid on its way to a Clock Unit. -/
structure BidHandover where
  buyer : Nat
  point : Nat
  target : DeskTarget
  run : Nat
  pressed : Nat
  asked : Nat
  tag : Option Nat
  deriving DecidableEq, Repr

/-- R85: a placement on its way to a Clock Unit. -/
structure PlacementHandover where
  buyer : Nat
  point : Nat
  target : DeskTarget
  product : Nat
  limit : Nat
  asked : Nat
  count : Nat
  untilChange : Bool
  tag : Option Nat
  deriving DecidableEq, Repr

/-- R87: a buyer notice. -/
structure NoticeHandover where
  buyer : Nat
  blocked : Bool
  point : Nat
  members : ClockSet
  target : Option DeskTarget
  deriving DecidableEq, Repr

/-- What the Account Unit hands a Clock Unit (R87). -/
inductive ToClock where
  | bid (b : BidHandover)
  | placement (p : PlacementHandover)
  | cancel (buyer : Nat) (target : DeskTarget) (tag : Option Nat)
  | notice (n : NoticeHandover)
  | endOrders (buyer : Nat) (target : Option DeskTarget)
  | hall (h : HallState)
  | grant (line : Nat)
  | refuse (cause : Cause)
  deriving DecidableEq, Repr

/-- R57: a reservation. -/
structure Reservation where
  buyer : Nat
  lot : Nat
  product : Nat
  grower : Nat
  cls : Nat
  stems : Nat
  price : Nat
  quantity : Nat
  run : Nat
  deriving DecidableEq, Repr

/-- The origin of a bid as the part's messages carry it (spec 11: PRESSED 0, ORDER 1 with the order number). -/
inductive Origin where
  | pressed
  | order (number : Nat)
  deriving DecidableEq, Repr

/-- R60: AWARD, less the local desk. -/
structure AwardBody where
  clock : ClockId
  run : Nat
  lot : Nat
  product : Nat
  position : Nat
  quantity : Nat
  price : Nat
  line : Nat
  origin : Origin
  deriving DecidableEq, Repr

/-- R63: BID REFUSED, less the local desk. Fields that a refusal's rule does not give it are absent (log 19). -/
structure BidRefusedBody where
  clock : Option ClockId
  run : Option Nat
  cause : Cause
  origin : Option Origin
  clamped : Option (Nat × Nat)
  deriving DecidableEq, Repr

/-- R96: ORDER ENDED. -/
structure OrderEndedBody where
  clock : ClockId
  number : Nat
  buyer : Nat
  product : Nat
  reason : EndReason
  count : Nat
  desk : Nat
  deriving DecidableEq, Repr

/-- R86: ORDER PLACED. -/
structure OrderPlacedBody where
  clock : ClockId
  number : Nat
  product : Nat
  limit : Nat
  asked : Nat
  count : Nat
  untilChange : Bool
  replaced : Option Nat
  desk : Nat
  deriving DecidableEq, Repr

/-- R63: an outcome handed back for the buyer's bound desk. -/
inductive OutcomeBody where
  | award (a : AwardBody)
  | refused (r : BidRefusedBody)
  deriving DecidableEq, Repr

/-- A Clock Unit's answer to a placement or a cancel, for the link it came on (R86, R94, log 8). -/
inductive DeskReply where
  | placed (o : OrderPlacedBody)
  | ordersFull (r : BidRefusedBody)
  | noOrder
  deriving DecidableEq, Repr

/-- What a Clock Unit hands the Account Unit (R57, R63, R96, R163, log 10). -/
inductive ToAccount where
  | reservation (r : Reservation)
  | outcome (buyer : Nat) (tag : Option Nat) (b : OutcomeBody)
  | reply (target : DeskTarget) (tag : Option Nat) (b : DeskReply)
  | orderEnded (link : LinkId) (tag : Option Nat) (b : OrderEndedBody)
  | activity (active : Bool) (answers : Option HallState)
  deriving DecidableEq, Repr

/-- What the Supply Unit tells a Clock Unit (R13, R15, R16, R20). A withdrawn lot's units go with it (log 22). -/
inductive ToClockFromSupply where
  | headLotPresented (lot : Nat)
  | noPresentedHead
  | lotWithdrawn (lot : Nat) (remaining : Nat)
  deriving DecidableEq, Repr

/-- R137: the lot of a clock report. -/
structure LotReport where
  lot : Nat
  product : Nat
  grower : Nat
  cls : Nat
  remaining : Nat
  stems : Nat
  minPurchase : Nat
  minPrice : Nat
  deriving DecidableEq, Repr

/-- R137: a clock report. -/
structure ClockReport where
  state : ClockState
  run : Nat
  position : Nat
  price : Nat
  lastAward : Option LastAward
  lot : Option LotReport
  deriving DecidableEq, Repr

/-- R137: what a Clock Unit tells the Display Unit. -/
inductive ClockEvent where
  | state (r : ClockReport)
  | stride (r : ClockReport)
  | award (r : ClockReport) (units : Nat)
  | divisor (r : ClockReport) (d : Nat)
  deriving DecidableEq, Repr

/-- R138: what the Supply Unit tells the Display Unit of a clock. -/
structure SupplyEvent where
  nextLot : Nat
  withdrawal : Bool
  deriving DecidableEq, Repr

/-- R169: the positions and quantity an admitted bid was given. -/
structure Admission where
  arrival : Nat
  clamped : Nat
  quantity : Nat
  deriving DecidableEq, Repr

/-- R169: a bid report, which is what BID COPY carries. A verdict without a cause is ADMITTED. -/
structure BidReport where
  clock : ClockId
  buyer : Nat
  target : Option DeskTarget
  run : Nat
  origin : Option Origin
  pressed : Nat
  asked : Nat
  verdict : Option Cause
  admission : Option Admission
  deriving DecidableEq, Repr

/-- R170: the outcome of a candidate or admitted bid. -/
inductive OutcomeKind where
  | award (price : Nat) (line : Nat)
  | refused (cause : Cause) (offered : Option Nat)
  deriving DecidableEq, Repr

/-- R170: an outcome report, which is what OUTCOME COPY carries. -/
structure OutcomeReport where
  clock : ClockId
  run : Nat
  lot : Nat
  buyer : Nat
  origin : Origin
  position : Nat
  quantity : Nat
  outcome : OutcomeKind
  deriving DecidableEq, Repr

/-- A bid or outcome report on its way to the Display Unit (R44, R45, R63, R90). -/
inductive Report where
  | bid (r : BidReport)
  | outcome (r : OutcomeReport)
  deriving DecidableEq, Repr

/-- The hand-overs in flight that concern one clock, each oldest first (log 10). -/
structure Channels where
  accountToClock : List ToClock
  clockToAccount : List ToAccount
  supplyToClock : List ToClockFromSupply
  clockToSupply : List Nat
  clockToDisplay : List ClockEvent
  supplyToDisplay : List SupplyEvent
  clockReports : List Report
  deriving DecidableEq, Repr

/-! ### Messages the part sends -/

/-- R162. -/
structure Statistics where
  framesIn : Nat
  framesOut : Nat
  badFrames : Nat
  inboundDrops : Nat
  urgentDrops : Nat
  bulkDrops : Nat
  gapMarks : Nat
  deriving DecidableEq, Repr

/-- What an ACK carries, by the rule of the message it answers. -/
inductive AckInfo where
  /-- R13, R16, R17 for a FILLING train, R20, R38, R100, R165. -/
  | plain
  /-- R37: whether the hold is pending (else in force). -/
  | hold (isPending : Bool)
  /-- R39: whether the withdrawal is pending (else in force). -/
  | withdrawal (isPending : Bool)
  /-- R17. -/
  | lotsWithdrawn (count : Nat)
  /-- R99. -/
  | buyerSet (buyer : Nat) (created clamped : Bool) (exposure : Nat)
  /-- R101. -/
  | creditLimit (buyer limit : Nat) (clamped : Bool) (exposure : Nat)
  /-- R102. -/
  | blocked (buyer : Nat) (flag : Bool)
  /-- R110. -/
  | present (desk buyer : Nat)
  /-- R126. -/
  | closed (number : InvoiceNumber) (lines total : Nat)
  /-- R131. -/
  | settled (number : InvoiceNumber) (lines buyer exposure : Nat)
  /-- R164. -/
  | day (number : Nat)
  deriving DecidableEq, Repr

/-- R27: CLOCK STATE, with the lot's remaining and sold units, which R66 has the console learn from it (log 39). -/
structure ClockStateBody where
  clock : ClockId
  state : ClockState
  run : Nat
  lot : Nat
  remaining : Nat
  sold : Nat
  position : Nat
  price : Nat
  dwell : Nat
  pendingHold : Bool
  pendingWithdrawal : Bool
  holdCause : Option HoldCause
  deriving DecidableEq, Repr

/-- R60: AWARD NOTICE. -/
structure AwardNoticeBody where
  clock : ClockId
  run : Nat
  lot : Nat
  buyer : Nat
  point : Nat
  origin : Origin
  position : Nat
  quantity : Nat
  price : Nat
  remaining : Nat
  line : Nat
  deriving DecidableEq, Repr

/-- R28, R29: LOT CLOSED; the run number is not carried when logistics withdrew the lot. -/
structure LotClosedBody where
  lot : Nat
  outcome : LotOutcome
  origin : LotOrigin
  remaining : Nat
  sold : Nat
  run : Option Nat
  deriving DecidableEq, Repr

/-- R147: SNAPSHOT. -/
structure SnapshotBody where
  clock : ClockId
  state : ClockState
  run : Nat
  lot : Nat
  product : Nat
  remaining : Nat
  price : Nat
  position : Nat
  nextLot : Nat
  units : Nat
  awards : Nat
  deriving DecidableEq, Repr

/-- R167: DAY STATE; the last two fields are carried at CLOSED. -/
structure DayStateBody where
  hall : HallState
  day : Nat
  active : Nat
  lines : Nat
  queued : Nat
  closed : Option Nat
  dropped : Option Nat
  deriving DecidableEq, Repr

/-- The messages the part sends (spec 11, the table of kinds sent by the part). -/
inductive OutBody where
  | announceAccepted (link : LinkId) (role : Role) (weight : Weight) (deskAge : Option Nat)
  | announceRefused (cause : Cause)
  | refused (kind : Option Nat) (cause : Cause) (desk : Option Nat)
  | ack (info : AckInfo)
  | trainAccepted (train : Nat) (clock : ClockId) (trolleys lots clamped : Nat)
  | trainRefused (train : Nat) (cause : Cause)
  | departOrder (clock : ClockId) (trolley : Nat) (picks : List Pick)
  | slotStatus (clock : ClockId) (trolley : Nat) (state : Option TrolleyState) (notDone queued : Nat)
  | configured (config : ClockConfig) (clamped : List Param)
  | runStarted (clock : ClockId) (run lot startPrice : Nat) (differs : Bool) (state : ClockState)
  | clockState (b : ClockStateBody)
  | lotClosed (b : LotClosedBody)
  | awardNotice (b : AwardNoticeBody)
  | sequenceNotice (clock : ClockId) (trolley moved passed : Nat)
  | storeLow (free : Nat)
  | loggedIn (desk buyer : Nat) (members : ClockSet) (blocked : Bool) (point : Nat)
  | loggedOut (desk : Nat) (reason : LogoutReason) (buyer : Nat)
  | bidRefused (desk : Option Nat) (b : BidRefusedBody)
  | award (desk : Nat) (b : AwardBody)
  | orderPlaced (b : OrderPlacedBody)
  | orderEnded (b : OrderEndedBody)
  | changeNotice (clock : ClockId)
  | snapshot (b : SnapshotBody)
  | tariffLoaded (generation : Nat) (clamped : List (Nat × TariffItem))
  | invoiceHeader (number : InvoiceNumber) (cause : Option CloseCause) (lines total : Nat) (sentBefore : Bool)
  | invoiceLine (id : Nat) (line : Line)
  | dayState (b : DayStateBody)
  | clockFrame (f : Frame)
  | bidCopy (r : BidReport)
  | outcomeCopy (r : OutcomeReport)
  | statistics (link : LinkId) (state : LinkState) (role : Option Role) (counters : Statistics) (cleared : Bool)
  deriving DecidableEq, Repr

/-- A message of the part with the TAG it echoes, if any. -/
structure OutMsg where
  tag : Option Nat
  body : OutBody
  deriving DecidableEq, Repr

/-- R153: the flow marker that waits to be sent. -/
inductive FlowMarker where
  | wait | go
  deriving DecidableEq, Repr

/-- What the transmitter puts on the line (R159, R160). -/
inductive SentFrame where
  | flow (m : FlowMarker)
  | keep
  | message (gapMark : Bool) (m : OutMsg)
  deriving DecidableEq, Repr

/-- The state of one Link Interface (spec 09). `lastSent` is the model's own record of the last frame sent (log 24). -/
structure Link where
  state : LinkState
  role : Option Role
  weight : Weight
  inbound : List (List Byte)
  waitSent : Bool
  peerWait : Bool
  urgent : List OutMsg
  bulk : List OutMsg
  service : Nat
  gapPending : Bool
  flowPending : Option FlowMarker
  keepPending : Bool
  lossTimer : Option Nat
  keepTimer : Option Nat
  stats : Statistics
  lastSent : Option SentFrame
  deriving DecidableEq, Repr

/-! ### The part and the machine -/

/-- All of the part but the reset pin: its six blocks and the hand-overs in flight. -/
structure Part where
  links : PerLink Link
  supply : Supply
  clocks : PerClock ClockUnit
  account : Account
  display : Display
  channels : PerClock Channels
  accountReports : List Report
  now : Nat
  deriving DecidableEq, Repr

/-- The machine: the part, its reset pin, and the commands that wait, first in, first out. -/
structure State where
  part : Part
  pinLow : Bool
  pending : List Instr
  deriving DecidableEq, Repr

/-! ### After reset -/

/-- R162. -/
def Statistics.zero : Statistics := ⟨0, 0, 0, 0, 0, 0, 0⟩

/-- The link of spec 09's table of state, after reset. -/
def Link.reset : Link :=
  { state := .down, role := none, weight := .w8, inbound := [], waitSent := false, peerWait := false, urgent := [],
    bulk := [], service := 0, gapPending := false, flowPending := none, keepPending := false, lossTimer := none,
    keepTimer := none, stats := Statistics.zero, lastSent := none }

/-- R1 to R7. -/
def Supply.reset : Supply :=
  { trains := [], trolleys := [], lots := [], queues := PerClock.const [], slots := PerClock.const none, discard := none }

/-- R23. -/
def ClockConfig.reset : ClockConfig :=
  { stridePeriod := 25, priceStep := 10, stopWindow := 40, lagLimit := 4, floorDwell := 40, restartMarkup := 3,
    restartDelay := 1000, frameDivisor := 2 }

/-- R25. -/
def RunRecord.reset : RunRecord :=
  { lot := none, run := 0, startPrice := none, step := none, minPrice := none, position := 0, price := 0, dwell := 0,
    restartPrice := none, heldFrom := none, holdCause := none, pendingHold := false, pendingWithdrawal := false,
    lastAward := none, hallView := .closed }

/-- R25, R49, R67, R84. -/
def ClockUnit.reset : ClockUnit :=
  { state := .idle, config := ClockConfig.reset, run := RunRecord.reset, strideTimer := none, windowTimer := none,
    restartTimer := none, candidates := [], arrivals := 0, tried := 0, inFlight := none, orders := [], nextOrder := 1 }

/-- R163. -/
def Hall.reset : Hall :=
  { state := .closed, day := 0, mark := none, active := PerClock.const false, answered := PerClock.const false }

/-- R81, R97, R106, R118, R119, R121, R123, R128, R129. -/
def Account.reset : Account :=
  { hall := Hall.reset, buyers := [], desks := [], groups := PerLink.const none, tariff := none, generation := 0,
    lines := [], invoices := [], openList := [], settleQueue := [], cursor := none, storeLow := false }

/-- R136. -/
def View.reset : View :=
  { state := .idle, run := 0, lot := 0, product := 0, grower := 0, cls := 0, remaining := 0, stems := 0,
    minPurchase := 0, minPrice := 0, position := 0, price := 0, lastAward := none, nextLot := 0 }

/-- R140, R149: the frame composed when reset ends. -/
def Frame.reset (c : ClockId) : Frame :=
  { clock := c, sequence := 1, state := .idle, lot := 0, product := 0, grower := 0, cls := 0, remaining := 0,
    stems := 0, minPurchase := 0, run := 0, position := 0, price := 0, atFloor := false, lastAward := none,
    tier := .steady }

/-- R139, R141, R149: the cadence after reset; the frame timer runs with 250 ms from the end of reset. -/
def DisplayClock.reset (c : ClockId) : DisplayClock :=
  { view := View.reset, frame := Frame.reset c, tier := .steady, lastChange := 0,
    frameTimer := some Config.steadyPeriod, strideCount := 0, divisor := 2, sequence := 1 }

/-- R149, R169. -/
def Display.reset : Display :=
  { clocks := ⟨DisplayClock.reset .c1, DisplayClock.reset .c2, DisplayClock.reset .c3, DisplayClock.reset .c4⟩,
    sets := PerLink.const none, clockSets := PerLink.const none, mirror := none }

/-- No hand-over is in flight after reset (R67, R168). -/
def Channels.reset : Channels :=
  { accountToClock := [], clockToAccount := [], supplyToClock := [], clockToSupply := [], clockToDisplay := [],
    supplyToDisplay := [], clockReports := [] }

/-- R168: every block holds its after-reset values, and the time base counts from 0. -/
def Part.reset : Part :=
  { links := PerLink.const Link.reset, supply := Supply.reset, clocks := PerClock.const ClockUnit.reset,
    account := Account.reset, display := Display.reset, channels := PerClock.const Channels.reset,
    accountReports := [], now := 0 }

/-- The machine right after reset (R168), with no command waiting. -/
def State.reset : State := { part := Part.reset, pinLow := false, pending := [] }

end Sys2Proof.Machine
end

