-- ==== Sys2Proof/Machine/Flags.lean ====
section
/-! DEFINITION. Flags.lean: the flags of the part and how each is computed: a link's flow flags and gap flag (R153, R159), the
statistics counters, the store-low flag (R118), the floor flag of a frame (R140), a desk group's change flag (R145). -/

namespace Sys2Proof.Machine

/-! ### A link's flow flags (R153) -/

/-- A message has been appended: at 12 or more waiting with wait sent no, WAIT is made pending and wait sent is set. -/
def Link.flowOnAppend (k : Link) : Link :=
  if Config.waitMark ≤ k.inbound.length ∧ k.waitSent = false then { k with flowPending := some .wait, waitSent := true } else k

/-- A message has been dropped at a full inbound queue: WAIT is made pending again. -/
def Link.flowOnDrop (k : Link) : Link := { k with flowPending := some .wait }

/-- A message has left: at 4 or fewer waiting with wait sent yes, GO is made pending and wait sent is cleared. -/
def Link.flowOnLeave (k : Link) : Link :=
  if k.inbound.length ≤ Config.goMark ∧ k.waitSent = true then { k with flowPending := some .go, waitSent := false } else k

/-! ### Statistics counters (R162) -/

def Link.countIn (k : Link) : Link := { k with stats := { k.stats with framesIn := count32 k.stats.framesIn } }
def Link.countOut (k : Link) : Link := { k with stats := { k.stats with framesOut := count32 k.stats.framesOut } }
def Link.countBad (k : Link) : Link := { k with stats := { k.stats with badFrames := count32 k.stats.badFrames } }
def Link.countInboundDrop (k : Link) : Link :=
  { k with stats := { k.stats with inboundDrops := count32 k.stats.inboundDrops } }
def Link.countGap (k : Link) : Link := { k with stats := { k.stats with gapMarks := count32 k.stats.gapMarks } }

/-- R159: a message lost at a full urgent queue is counted, and the next message sent will carry the gap mark. -/
def Link.urgentDropped (k : Link) : Link :=
  { k with stats := { k.stats with urgentDrops := count32 k.stats.urgentDrops }, gapPending := true }

/-- R159: the same at a full bulk queue. -/
def Link.bulkDropped (k : Link) : Link :=
  { k with stats := { k.stats with bulkDrops := count32 k.stats.bulkDrops }, gapPending := true }

/-! ### The store-low flag (R118) -/

/-- The free places of the line store. -/
def Account.freeLines (a : Account) : Nat := Config.maxLines - a.lines.length

/-- Whether a line creation that leaves the account so must warn: fewer than 64 free lines with the flag clear. -/
def Account.crossesStoreLow (a : Account) : Bool := decide (a.freeLines < Config.storeLowFree) && !a.storeLow

/-- After a freeing of lines: at 64 or more free lines the flag is cleared. -/
def Account.clearStoreLow (a : Account) : Account :=
  if Config.storeLowFree ≤ a.freeLines then { a with storeLow := false } else a

/-! ### Clock states and the floor flag -/

/-- R27: a clock is quiet in IDLE and READY and active in any other state. -/
def ClockState.active : ClockState → Bool
  | .idle | .ready => false
  | _ => true

/-- R141: the clock states of tier FAST. -/
def ClockState.fast : ClockState → Bool
  | .running | .floor | .window => true
  | _ => false

/-- R140: yes in FLOOR, and in WINDOW, AWARDING or HELD when the current price is the lot's minimum price. -/
def View.floorFlag (v : View) : Bool :=
  match v.state with
  | .floor => true
  | .window | .awarding | .held => decide (v.price = v.minPrice)
  | _ => false

/-! ### A desk group's accumulators and change flag (R145) -/

/-- An award of so many units: both counts are raised and held at their tops. -/
def Accumulator.award (a : Accumulator) (units : Nat) : Accumulator :=
  { a with units := min 65535 (a.units + units), awards := min 255 (a.awards + 1) }

/-- R145: a fresh set, and the set after a snapshot. -/
def Accumulator.zero : Accumulator := ⟨0, 0, false⟩

/-- R145: whether a report's run number is raised over the one the view held. -/
def runRaised (old new : Nat) : Bool := decide (old < new) || (decide (new = 1) && decide (old = Config.maxCount16))

end Sys2Proof.Machine
end

