-- ==== Sys2Proof/Machine/Operands.lean ====
section
/-! DEFINITION. Operands.lean: the forms in which commands' values come and go: frames, qualifiers and message bodies as
bytes (spec 11), with the values each field takes, and the bodies of the central messages the part sends. -/

namespace Sys2Proof.Machine

/-! ### Fields -/

/-- Multi-byte fields have the most significant byte first (spec 11). -/
def beNat (bs : List Byte) : Nat := bs.foldl (fun a b => a * 256 + b.toNat) 0

/-- The field of a body at an offset, of a size in bytes. -/
def fieldAt (body : List Byte) (off len : Nat) : Nat := beNat ((body.drop off).take len)

/-- A number as a field of a size in bytes, most significant byte first. -/
def toField (len : Nat) (v : Nat) : List Byte :=
  match len with
  | 0 => []
  | n + 1 => toField n (v / 256) ++ [BitVec.ofNat 8 v]

/-- A set of clocks is one byte, the lowest bit for clock 1; the higher four bits are not judged (R175). -/
def clockSetOf (v : Nat) : ClockSet := ⟨v.testBit 0, v.testBit 1, v.testBit 2, v.testBit 3⟩

/-- A yes or no indication: 0 for no, any other value for yes (R175). -/
def yesOf (v : Nat) : Bool := decide (v ≠ 0)

/-! ### Frames (R172) -/

/-- One bit of the frame check: polynomial x^16 + x^12 + x^5 + 1. -/
def checkBit (r : Word16) : Word16 := if r.msb then (r <<< 1) ^^^ 0x1021#16 else r <<< 1

/-- One byte of the frame check, most significant bit first. -/
def checkByte (r : Word16) (b : Byte) : Word16 :=
  checkBit (checkBit (checkBit (checkBit (checkBit (checkBit (checkBit (checkBit (r ^^^ ((b.setWidth 16) <<< 8)))))))))

/-- The frame check of the bytes before it: remainder preset to all ones and not inverted. -/
def frameCheck (bs : List Byte) : Word16 := bs.foldl checkByte 0xFFFF#16

/-- What a received frame is found to be. -/
inductive FrameIn where
  | bad
  | keep
  | wait
  | go
  | message (raw : List Byte)
  deriving DecidableEq, Repr

/-- R172: a frame is good when its check agrees and it is formed: three bytes or more, type 1 to 4, a marker of three bytes,
a message whose length is not 0 and agrees with the bytes it has. -/
def readFrame (bs : List Byte) : FrameIn :=
  if bs.length < 3 then .bad
  else if (frameCheck (bs.take (bs.length - 2))).toNat ≠ fieldAt bs (bs.length - 2) 2 then .bad
  else
    match fieldAt bs 0 1 with
    | 1 =>
      if bs.length < 6 then .bad
      else if fieldAt bs 2 1 ≠ bs.length - 5 then .bad
      else .message ((bs.drop 3).take (bs.length - 5))
    | 2 => if bs.length = 3 then .keep else .bad
    | 3 => if bs.length = 3 then .wait else .bad
    | 4 => if bs.length = 3 then .go else .bad
    | _ => .bad

/-- A frame of the given content with its check, as it goes on the line. -/
def withCheck (bs : List Byte) : List Byte := bs ++ toField 2 (frameCheck bs).toNat

/-- The message frame of a message without the gap mark (a peer's frame, or one of the part's). -/
def messageFrame (raw : List Byte) : List Byte := withCheck (toField 1 1 ++ toField 1 0 ++ toField 1 raw.length ++ raw)

/-! ### Kinds -/

/-- The kinds a peer may send (spec 11, the first table of kinds). -/
inductive Kind where
  | announce
  | trainHeader | trolleyEntry | trolleyArrived | lotWithdraw | trainWithdraw | trolleyDeparted | slotQuery
  | clockConfigure | start | holdClock | resume | withdrawLot
  | bid | cancelOrder | login | logout | present | snapshotRequest
  | buyerSet | buyerRemove | creditLimit | block | unblock | tariffLoad | closeInvoice | settled
  | openDay | closeDay | statisticsRequest
  deriving DecidableEq, Repr

/-- The kind of a kind code; none for a code that is not in the catalogue (R173). -/
def kindOf : Nat → Option Kind
  | 1 => some .announce
  | 2 => some .trainHeader
  | 3 => some .trolleyEntry
  | 4 => some .trolleyArrived
  | 5 => some .lotWithdraw
  | 6 => some .trainWithdraw
  | 7 => some .trolleyDeparted
  | 8 => some .slotQuery
  | 10 => some .clockConfigure
  | 11 => some .start
  | 12 => some .holdClock
  | 13 => some .resume
  | 14 => some .withdrawLot
  | 16 => some .bid
  | 17 => some .cancelOrder
  | 18 => some .login
  | 19 => some .logout
  | 20 => some .present
  | 21 => some .snapshotRequest
  | 24 => some .buyerSet
  | 25 => some .buyerRemove
  | 26 => some .creditLimit
  | 27 => some .block
  | 28 => some .unblock
  | 29 => some .tariffLoad
  | 30 => some .closeInvoice
  | 31 => some .settled
  | 34 => some .openDay
  | 35 => some .closeDay
  | 36 => some .statisticsRequest
  | _ => none

/-- Whether a kind is permitted to a role (R156). ANNOUNCE is permitted to none: it is taken in WAITING. -/
def permitted (r : Role) (k : Kind) : Bool :=
  match k with
  | .announce => false
  | .trainHeader | .trolleyEntry | .trolleyArrived | .lotWithdraw | .trainWithdraw | .trolleyDeparted | .slotQuery =>
    decide (r = .logistics)
  | .clockConfigure | .start | .holdClock | .resume | .withdrawLot =>
    match r with
    | .console _ => true
    | _ => false
  | .bid | .cancelOrder | .login | .logout | .present | .snapshotRequest => decide (r = .deskGroup)
  | .buyerSet | .buyerRemove | .creditLimit | .block | .unblock | .tariffLoad | .closeInvoice | .settled =>
    decide (r = .settlement)
  | .openDay | .closeDay | .statisticsRequest => decide (r = .supervision)

/-- The kinds of a DESK GROUP link, on which the CLOCK qualifier is judged (R155). -/
def deskGroupKind : Kind → Bool
  | .bid | .cancelOrder | .login | .logout | .present | .snapshotRequest => true
  | _ => false

/-! ### Qualifiers (R155, R173) -/

/-- One qualifier with its value. -/
inductive Qualifier where
  | tag (v : Nat)
  | clock (v : Nat)
  | repeats (v : Nat)
  | limit (v : Nat)
  | untilChange
  deriving DecidableEq, Repr

/-- Read that many qualifiers; the rest is the body. None: a group code is not 1 to 5, or the message ends inside one. -/
def readQualifiers (n : Nat) (bs : List Byte) : Option (List Qualifier × List Byte) :=
  match n with
  | 0 => some ([], bs)
  | n + 1 =>
    match bs with
    | [] => none
    | g :: rest =>
      let size := match g.toNat with | 1 => 2 | 2 => 1 | 3 => 1 | 4 => 4 | _ => 0
      if rest.length < size then none
      else
        let v := beNat (rest.take size)
        let q : Option Qualifier :=
          match g.toNat with
          | 1 => some (.tag v)
          | 2 => some (.clock v)
          | 3 => some (.repeats v)
          | 4 => some (.limit v)
          | 5 => some .untilChange
          | _ => none
        match q, readQualifiers n (rest.drop size) with
        | some q, some (qs, body) => some (q :: qs, body)
        | _, _ => none

/-- The values of the qualifiers of each group, in the order read. -/
def tagsIn : List Qualifier → List Nat := List.filterMap fun | .tag v => some v | _ => none
def clocksIn : List Qualifier → List Nat := List.filterMap fun | .clock v => some v | _ => none
def repeatsIn : List Qualifier → List Nat := List.filterMap fun | .repeats v => some v | _ => none
def limitsIn : List Qualifier → List Nat := List.filterMap fun | .limit v => some v | _ => none
def untilsIn : List Qualifier → List Unit := List.filterMap fun | .untilChange => some () | _ => none

/-- A message parsed: its kind code, its qualifiers (none: they cannot be read) and its body. -/
structure Message where
  code : Nat
  qualifiers : Option (List Qualifier)
  body : List Byte
  deriving DecidableEq, Repr

/-- R173: kind code, qualifier count, qualifiers, body. A count above 5 makes the qualifiers unreadable, and so does a
message that ends before the count (log 15). -/
def parse (raw : List Byte) : Message :=
  match raw with
  | [] => ⟨0, none, []⟩
  | k :: rest =>
    match rest with
    | [] => ⟨k.toNat, none, []⟩
    | n :: more =>
      if 5 < n.toNat then ⟨k.toNat, none, []⟩
      else
        match readQualifiers n.toNat more with
        | none => ⟨k.toNat, none, []⟩
        | some (qs, body) => ⟨k.toNat, some qs, body⟩

/-- The qualifiers read, none of them when they cannot be read. -/
def Message.quals (m : Message) : List Qualifier := m.qualifiers.getD []

/-- The TAG a reply echoes. Of several TAGs (which make the message malformed) the manual does not say which: free value (log 16). -/
def Message.tag (m : Message) : Option Nat :=
  match tagsIn m.quals with
  | [] => none
  | [t] => some t
  | t :: ts => some ((t :: ts).getD (Config.whichTag (t :: ts) % (t :: ts).length) t)

def Message.clock (m : Message) : Option Nat := (clocksIn m.quals).head?
def Message.repeats (m : Message) : Option Nat := (repeatsIn m.quals).head?
def Message.limit (m : Message) : Option Nat := (limitsIn m.quals).head?
def Message.untilChange (m : Message) : Bool := decide (untilsIn m.quals ≠ [])

/-- R155: at most one qualifier of each group. -/
def Message.oneOfEach (m : Message) : Bool :=
  decide ((tagsIn m.quals).length ≤ 1) && decide ((clocksIn m.quals).length ≤ 1) &&
  decide ((repeatsIn m.quals).length ≤ 1) && decide ((limitsIn m.quals).length ≤ 1) &&
  decide ((untilsIn m.quals).length ≤ 1)

/-- Whether an optional value, when present, lies in a range. -/
def inRangeIfPresent (v : Option Nat) (lo hi : Nat) : Bool :=
  match v with
  | none => true
  | some n => decide (lo ≤ n) && decide (n ≤ hi)

/-- R155, R173: a CLOCK value is judged on DESK GROUP messages, a REPEAT or LIMIT value on BID. -/
def Message.valuesOk (m : Message) (k : Kind) : Bool :=
  (!deskGroupKind k || inRangeIfPresent m.clock 1 4) &&
  (decide (k ≠ .bid) || (inRangeIfPresent m.repeats 1 255 && inRangeIfPresent m.limit 1 Config.maxPrice))

/-- The length of an ANNOUNCE body by its role (R173, R175); a role that is none of the six is left to check 1 of R157. -/
def announceLengthOk (body : List Byte) : Bool :=
  if body.length < 1 then false
  else
    match fieldAt body 0 1 with
    | 1 => decide (body.length = 2)
    | 2 => decide (body.length = 3)
    | 3 => decide (6 ≤ body.length) && decide (body.length = 6 + 4 * fieldAt body 5 1)
    | 4 => decide (body.length = 2)
    | 5 => decide (body.length = 3)
    | 6 => decide (body.length = 3)
    | _ => true

/-- R173, R175: the body of each kind has a fixed length, or one fixed by a count it holds. -/
def Message.lengthOk (m : Message) (k : Kind) : Bool :=
  match k with
  | .announce => announceLengthOk m.body
  | .trainHeader => decide (m.body.length = 4)
  | .trolleyEntry => decide (5 ≤ m.body.length) && decide (m.body.length = 5 + 27 * fieldAt m.body 4 1)
  | .trolleyArrived => decide (m.body.length = 3)
  | .lotWithdraw => decide (m.body.length = 4)
  | .trainWithdraw => decide (m.body.length = 2)
  | .trolleyDeparted => decide (m.body.length = 2)
  | .slotQuery => decide (m.body.length = 1)
  | .clockConfigure => decide (m.body.length = 17)
  | .start => decide (m.body.length = 4)
  | .holdClock => decide (m.body.length = 0)
  | .resume => decide (m.body.length = 0)
  | .withdrawLot => decide (m.body.length = 4)
  | .bid => decide (m.body.length = if m.limit.isSome then 12 else 8)
  | .cancelOrder => decide (m.body.length = 2)
  | .login => decide (m.body.length = 5)
  | .logout => decide (m.body.length = 2)
  | .present => decide (m.body.length = 2)
  | .snapshotRequest => decide (m.body.length = 0)
  | .buyerSet => decide (m.body.length = 12)
  | .buyerRemove => decide (m.body.length = 3)
  | .creditLimit => decide (m.body.length = 9)
  | .block => decide (m.body.length = 3)
  | .unblock => decide (m.body.length = 3)
  | .tariffLoad => decide (m.body.length = 96)
  | .closeInvoice => decide (m.body.length = 3)
  | .settled => decide (m.body.length = 7)
  | .openDay => decide (m.body.length = 2)
  | .closeDay => decide (m.body.length = 0)
  | .statisticsRequest => decide (m.body.length = 2)

/-- The parse verdict (R154, R155, R173). -/
def Message.verdict (m : Message) (k : Kind) : Bool :=
  m.qualifiers.isSome && m.oneOfEach && m.valuesOk k && m.lengthOk k

/-! ### Bodies of the messages sent to the part (R174, R175) -/

/-- An optional number given as 0 when absent. -/
def optOfZero (v : Nat) : Option Nat := if v = 0 then none else some v

/-- TRAIN HEADER: train id, clock, trolley count; none when malformed. -/
def readTrainHeader (b : List Byte) : Option (Nat × ClockId × Nat) :=
  match clockOf (fieldAt b 2 1) with
  | none => none
  | some c =>
    if fieldAt b 0 2 = 0 then none
    else if fieldAt b 3 1 = 0 || decide (16 < fieldAt b 3 1) then none
    else some (fieldAt b 0 2, c, fieldAt b 3 1)

/-- One lot entry of a TROLLEY ENTRY, as sent. -/
structure LotEntry where
  lot : Nat
  grower : Nat
  product : Nat
  cls : Nat
  units : Nat
  stems : Nat
  minPurchase : Nat
  minPrice : Nat
  suggested : Nat
  deriving DecidableEq, Repr

/-- The lot entry at an offset of the body (27 bytes). -/
def readLotEntry (b : List Byte) (o : Nat) : LotEntry :=
  { lot := fieldAt b o 4, grower := fieldAt b (o + 4) 4, product := fieldAt b (o + 8) 4, cls := fieldAt b (o + 12) 1,
    units := fieldAt b (o + 13) 2, stems := fieldAt b (o + 15) 2, minPurchase := fieldAt b (o + 17) 2,
    minPrice := fieldAt b (o + 19) 4, suggested := fieldAt b (o + 23) 4 }

/-- The lot entries of a TROLLEY ENTRY, as many as its count says. -/
def readLotEntries (b : List Byte) : List LotEntry :=
  (List.range (fieldAt b 4 1)).map (fun i => readLotEntry b (5 + 27 * i))

/-- R8, check 1, for one lot entry. -/
def LotEntry.ok (e : LotEntry) : Bool :=
  decide (e.lot ≠ 0) && decide (e.cls ≤ 15) && decide (1 ≤ e.units) && decide (e.units ≤ 9999) &&
  decide (1 ≤ e.stems) && decide (e.stems ≤ 1000) && decide (1 ≤ e.minPrice) && decide (e.minPrice ≤ Config.maxPrice)

/-- The configuration parameters a CLOCK CONFIGURE carries, in the order of R23's table, absent where its bit is clear. -/
def readConfigure (b : List Byte) : List (Param × Option Nat) :=
  let presence := fieldAt b 0 1
  let item (i : Nat) (p : Param) : Param × Option Nat :=
    (p, if presence.testBit i then some (fieldAt b (1 + 2 * i) 2) else none)
  [item 0 .stridePeriod, item 1 .priceStep, item 2 .stopWindow, item 3 .lagLimit, item 4 .floorDwell,
   item 5 .restartMarkup, item 6 .restartDelay, item 7 .frameDivisor]

/-- A BID body. -/
structure BidBody where
  desk : Nat
  run : Nat
  pressed : Nat
  quantity : Nat
  product : Nat
  deriving DecidableEq, Repr

/-- The fields of a BID body; the product code is there with LIMIT only. -/
def readBid (b : List Byte) : BidBody :=
  { desk := fieldAt b 0 2, run := fieldAt b 2 2, pressed := fieldAt b 4 2, quantity := fieldAt b 6 2,
    product := fieldAt b 8 4 }

/-- R43, R174: the values that make a BID malformed. -/
def bidOk (m : Message) : Bool :=
  let b := readBid m.body
  decide (b.desk ≤ 1023) && decide (b.run ≠ 0) && decide (b.quantity ≤ 9999) &&
  (m.repeats.isNone || m.limit.isSome)

/-- R174: a local desk above 1,023 is malformed. -/
def deskOk (m : Message) : Bool := decide (fieldAt m.body 0 2 ≤ 1023)

/-- The local desk a body gives, when it holds one (R43 for BID; for LOGIN the model's choice, log 43). -/
def deskGiven (m : Message) : Option Nat := if 2 ≤ m.body.length then some (fieldAt m.body 0 2) else none

/-- The 16 entries of a TARIFF LOAD, in class order, as sent. -/
def readTariff (b : List Byte) : List TariffEntry :=
  (List.range 16).map (fun i =>
    { rate := fieldAt b (6 * i) 2, container := fieldAt b (6 * i + 2) 2, lineFee := fieldAt b (6 * i + 4) 2 })

/-- The invoice number a SETTLED names. -/
def readInvoiceNumber (b : List Byte) : InvoiceNumber :=
  { day := fieldAt b 0 2, buyer := fieldAt b 2 3, sequence := fieldAt b 5 2 }

/-- The regions of a DESK GROUP ANNOUNCE, as many as its count says. -/
def readRegions (b : List Byte) : List Region :=
  (List.range (fieldAt b 5 1)).map (fun i => { size := fieldAt b (6 + 4 * i) 2, base := fieldAt b (8 + 4 * i) 2 })

/-- The outbound weight of an ANNOUNCE (R175): none when the value is no weight; absent means 8 (R158). -/
def weightOf : Nat → Option Weight
  | 0 => some .w8
  | 4 => some .w4
  | 8 => some .w8
  | 16 => some .w16
  | 255 => some .urgentFirst
  | _ => none

/-! ### Codes and bodies of the messages the part sends (spec 11) -/

/-- R175. -/
def clockStateCode : ClockState → Nat
  | .idle => 0
  | .ready => 1
  | .running => 2
  | .floor => 3
  | .window => 4
  | .awarding => 5
  | .restart => 6
  | .held => 7

/-- R175. -/
def tierCode : Tier → Nat
  | .fast => 0
  | .steady => 1
  | .slow => 2
  | .dormant => 3

/-- spec 11, Refusal causes. -/
def causeCode : Cause → Nat
  | .malformed => 1
  | .notRole => 2
  | .roleTaken => 3
  | .overlap => 4
  | .already => 5
  | .busy => 6
  | .noRoom => 7
  | .incomplete => 8
  | .unknownTrolley => 9
  | .wrongClock => 10
  | .occupied => 11
  | .unknownLot => 12
  | .unknownTrain => 13
  | .noLot => 14
  | .notRunning => 15
  | .notHeld => 16
  | .hallClosed => 17
  | .unmappedDesk => 18
  | .notLoggedIn => 19
  | .blocked => 20
  | .notMember => 21
  | .wrongRun => 22
  | .late => 23
  | .duplicate => 24
  | .outbid => 25
  | .picksFull => 26
  | .credit => 27
  | .storeFull => 28
  | .noInvoice => 29
  | .withdrawn => 30
  | .ordersFull => 31
  | .noOrder => 32
  | .unknownBuyer => 33
  | .noneOpen => 34
  | .unknownInvoice => 35
  | .noTariff => 36

/-- spec 11, Refusal causes (last paragraph). -/
def logoutCode : LogoutReason → Nat
  | .logout => 1
  | .moved => 2
  | .replaced => 3
  | .aged => 4
  | .removed => 5
  | .dayClosed => 6

/-- spec 11, Refusal causes (last paragraph). -/
def endCode : EndReason → Nat
  | .complete => 1
  | .credit => 2
  | .logout => 3
  | .cancelled => 4
  | .changed => 5
  | .dayClosed => 6
  | .notMember => 7
  | .replaced => 8

/-- spec 11: the kinds the part sends, by their codes. -/
def sentCode : OutBody → Nat
  | .announceAccepted .. => 64
  | .announceRefused .. => 65
  | .refused .. => 66
  | .ack .. => 67
  | .trainAccepted .. => 70
  | .trainRefused .. => 71
  | .departOrder .. => 72
  | .slotStatus .. => 73
  | .configured .. => 76
  | .runStarted .. => 77
  | .clockState .. => 78
  | .lotClosed .. => 79
  | .awardNotice .. => 80
  | .sequenceNotice .. => 81
  | .storeLow .. => 82
  | .loggedIn .. => 86
  | .loggedOut .. => 87
  | .bidRefused .. => 88
  | .award .. => 89
  | .orderPlaced .. => 90
  | .orderEnded .. => 91
  | .changeNotice .. => 92
  | .snapshot .. => 93
  | .tariffLoaded .. => 96
  | .invoiceHeader .. => 97
  | .invoiceLine .. => 98
  | .dayState .. => 100
  | .clockFrame .. => 104
  | .bidCopy .. => 108
  | .outcomeCopy .. => 109
  | .statistics .. => 110

/-- Origin as coded in the table of the central messages: 0 PRESSED, 1 ORDER, then the order number (0 for PRESSED). -/
def originField : Origin → List Byte
  | .pressed => toField 1 0 ++ toField 2 0
  | .order n => toField 1 1 ++ toField 2 n

/-- The AWARD body. -/
def awardBytes (desk : Nat) (a : AwardBody) : List Byte :=
  toField 2 desk ++ toField 1 (clockNumber a.clock) ++ toField 2 a.run ++ toField 4 a.lot ++ toField 4 a.product ++
  toField 2 a.position ++ toField 2 a.quantity ++ toField 4 a.price ++ toField 2 a.line ++ originField a.origin

/-- The AWARD NOTICE body. -/
def awardNoticeBytes (a : AwardNoticeBody) : List Byte :=
  toField 1 (clockNumber a.clock) ++ toField 2 a.run ++ toField 4 a.lot ++ toField 3 a.buyer ++ toField 2 a.point ++
  originField a.origin ++ toField 2 a.position ++ toField 2 a.quantity ++ toField 4 a.price ++
  toField 2 a.remaining ++ toField 2 a.line

/-- The indications byte of a CLOCK FRAME: lowest bit floor flag, next bit last award present. -/
def frameIndications (f : Frame) : Nat := (if f.atFloor then 1 else 0) + (if f.lastAward.isSome then 2 else 0)

/-- The CLOCK FRAME body. -/
def clockFrameBytes (f : Frame) : List Byte :=
  toField 1 (clockNumber f.clock) ++ toField 2 f.sequence ++ toField 1 (clockStateCode f.state) ++ toField 4 f.lot ++
  toField 4 f.product ++ toField 4 f.grower ++ toField 1 f.cls ++ toField 2 f.remaining ++ toField 2 f.stems ++
  toField 2 f.minPurchase ++ toField 2 f.run ++ toField 2 f.position ++ toField 4 f.price ++
  toField 1 (frameIndications f) ++
  (match f.lastAward with
   | some a => toField 3 a.buyer ++ toField 2 a.units ++ toField 4 a.price
   | none => toField 3 0 ++ toField 2 0 ++ toField 4 0) ++
  toField 1 (tierCode f.tier)

/-- The SNAPSHOT body. -/
def snapshotBytes (b : SnapshotBody) : List Byte :=
  toField 1 (clockNumber b.clock) ++ toField 1 (clockStateCode b.state) ++ toField 2 b.run ++ toField 4 b.lot ++
  toField 4 b.product ++ toField 2 b.remaining ++ toField 4 b.price ++ toField 2 b.position ++ toField 4 b.nextLot ++
  toField 2 b.units ++ toField 1 b.awards

/-- The INVOICE LINE body. -/
def invoiceLineBytes (id : Nat) (l : Line) : List Byte :=
  toField 2 l.invoice.day ++ toField 3 l.invoice.buyer ++ toField 2 l.invoice.sequence ++ toField 1 l.number ++
  toField 2 id ++ toField 4 l.lot ++ toField 1 (clockNumber l.clock) ++ toField 2 l.run ++ toField 4 l.product ++
  toField 4 l.grower ++ toField 1 l.cls ++ toField 2 l.units ++ toField 2 l.stems ++ toField 4 l.price ++
  toField 6 l.goods ++ toField 6 l.commission ++ toField 6 l.container ++ toField 6 l.lineFee ++ toField 6 l.total ++
  toField 2 l.generation ++ toField 4 l.awardTime

/-- The body of a sent message as bytes, for the five whose layout the manual gives (spec 11, Bodies of the central messages);
none for the others, whose layout it does not give (log 24). -/
def sentBytes : OutBody → Option (List Byte)
  | .award d a => some (awardBytes d a)
  | .awardNotice a => some (awardNoticeBytes a)
  | .clockFrame f => some (clockFrameBytes f)
  | .snapshot b => some (snapshotBytes b)
  | .invoiceLine i l => some (invoiceLineBytes i l)
  | _ => none

/-- The whole frame of such a message on the line: type 1, the gap mark in the lowest bit of the flags, length, kind,
qualifiers (the echoed TAG, if any), body and check (spec 11, Frames). -/
def sentFrameBytes (gapMark : Bool) (m : OutMsg) : Option (List Byte) :=
  match sentBytes m.body with
  | none => none
  | some body =>
    let quals := match m.tag with | none => toField 1 0 | some t => toField 1 1 ++ toField 1 1 ++ toField 2 t
    let raw := toField 1 (sentCode m.body) ++ quals ++ body
    some (withCheck (toField 1 1 ++ toField 1 (if gapMark then 1 else 0) ++ toField 1 raw.length ++ raw))

/-- The bytes of a marker frame of the part: the frame type and the check. -/
def markerBytes : SentFrame → Option (List Byte)
  | .keep => some (withCheck (toField 1 2))
  | .flow .wait => some (withCheck (toField 1 3))
  | .flow .go => some (withCheck (toField 1 4))
  | .message g m => sentFrameBytes g m

end Sys2Proof.Machine
end

