-- ==== Sys2Proof/Machine/Ops.lean ====
section
/-! DEFINITION. Ops.lean: the operations the units share: placing messages on a link, taking the message at the head of a
link, handing over between units, and the change of a clock's state. -/

namespace Sys2Proof.Machine

/-- What every command does to the machine: its effect on the part. While the reset pin is low the part takes nothing and sends
nothing (R168), so the command changes nothing. -/
def run (s : State) (f : Part → Part) : Host.Outcome State Fault Refusal :=
  .next (if s.pinLow then s else { s with part := f s.part })

/-! ### Parts of the part -/

def Part.updLink (p : Part) (l : LinkId) (f : Link → Link) : Part := { p with links := p.links.upd l f }
def Part.updClock (p : Part) (c : ClockId) (f : ClockUnit → ClockUnit) : Part := { p with clocks := p.clocks.upd c f }
def Part.updChannels (p : Part) (c : ClockId) (f : Channels → Channels) : Part := { p with channels := p.channels.upd c f }
def Part.updSupply (p : Part) (f : Supply → Supply) : Part := { p with supply := f p.supply }
def Part.updAccount (p : Part) (f : Account → Account) : Part := { p with account := f p.account }
def Part.updDisplay (p : Part) (f : Display → Display) : Part := { p with display := f p.display }
def Part.updRun (p : Part) (c : ClockId) (f : RunRecord → RunRecord) : Part :=
  p.updClock c (fun k => { k with run := f k.run })

/-- The lot record of an id. -/
def Part.lot (p : Part) (id : Nat) : Option Lot := p.supply.lots.find id
/-- The trolley record of an id. -/
def Part.trolley (p : Part) (id : Nat) : Option Trolley := p.supply.trolleys.find id
/-- The buyer record of an id. -/
def Part.buyer (p : Part) (id : Nat) : Option Buyer := p.account.buyers.find id

def Part.updLot (p : Part) (id : Nat) (f : Lot → Lot) : Part :=
  p.updSupply (fun s => { s with lots := s.lots.modify id f })
def Part.updTrolley (p : Part) (id : Nat) (f : Trolley → Trolley) : Part :=
  p.updSupply (fun s => { s with trolleys := s.trolleys.modify id f })
def Part.updBuyer (p : Part) (id : Nat) (f : Buyer → Buyer) : Part :=
  p.updAccount (fun a => { a with buyers := a.buyers.modify id f })

/-- Time moves on to the end of a timer that is taken, and never back (log 3). -/
def Part.reach (p : Part) (t : Nat) : Part := { p with now := max p.now t }

/-! ### Links: who serves what -/

/-- Whether a link is UP in a role. -/
def Part.serves (p : Part) (l : LinkId) (r : Role) : Bool :=
  decide ((p.links.get l).state = .up) && decide ((p.links.get l).role = some r)

/-- The link that is UP in a role of which there is at most one (R157). -/
def Part.linkOf (p : Part) (r : Role) : Option LinkId := linkIds.find? (fun l => p.serves l r)

/-! ### Placing messages (R159) -/

/-- A message for the urgent queue, dropped when the queue holds 24. -/
def Link.putUrgent (k : Link) (m : OutMsg) : Link :=
  if k.urgent.length < Config.urgentCap then { k with urgent := k.urgent ++ [m] } else k.urgentDropped

/-- A message for the bulk queue, dropped when the queue holds 32. -/
def Link.putBulk (k : Link) (m : OutMsg) : Link :=
  if k.bulk.length < Config.bulkCap then { k with bulk := k.bulk ++ [m] } else k.bulkDropped

/-- Whether a queued message is a CLOCK FRAME of a clock. -/
def OutMsg.isFrameOf (m : OutMsg) (c : ClockId) : Bool :=
  match m.body with
  | .clockFrame f => decide (f.clock = c)
  | _ => false

/-- R143: a CLOCK FRAME takes the place of the frame of the same clock not yet sent, or is appended. -/
def Link.putFrame (k : Link) (f : Frame) : Link :=
  if k.bulk.any (fun m => m.isFrameOf f.clock) then
    { k with bulk := k.bulk.map (fun m => if m.isFrameOf f.clock then ⟨none, .clockFrame f⟩ else m) }
  else k.putBulk ⟨none, .clockFrame f⟩

/-- A unit's urgent message to a link: not placed and not kept unless the link is UP (R151). -/
def Part.postUrgent (p : Part) (l : LinkId) (m : OutMsg) : Part :=
  p.updLink l (fun k => if k.state = .up then k.putUrgent m else k)

/-- A unit's bulk message to a link, likewise. -/
def Part.postBulk (p : Part) (l : LinkId) (m : OutMsg) : Part :=
  p.updLink l (fun k => if k.state = .up then k.putBulk m else k)

/-- The Link Interface's own replies, which go out in WAITING too (R159). -/
def Part.postLink (p : Part) (l : LinkId) (m : OutMsg) : Part :=
  p.updLink l (fun k => if k.state = .up ∨ k.state = .waiting then k.putUrgent m else k)

/-- An urgent message to the link of a role, when one is UP. -/
def Part.postRole (p : Part) (r : Role) (m : OutMsg) : Part :=
  match p.linkOf r with
  | none => p
  | some l => p.postUrgent l m

/-- A bulk message to the SUPERVISION link, when one is UP. -/
def Part.postMirror (p : Part) (m : OutMsg) : Part :=
  match p.linkOf .supervision with
  | none => p
  | some l => p.postBulk l m

/-- A reply to a message, on the link it came on, echoing its TAG. -/
def Part.reply (p : Part) (l : LinkId) (m : Message) (b : OutBody) : Part := p.postUrgent l ⟨m.tag, b⟩

/-- REFUSED with a cause, by the unit that owns the message (spec 00, Clamping and refusal). -/
def Part.refuseMsg (p : Part) (l : LinkId) (m : Message) (c : Cause) : Part := p.reply l m (.refused none c none)

/-! ### Taking messages (R153, R154, R156) -/

/-- The message at the head of a link's inbound queue leaves it. -/
def Link.leave (k : Link) : Link := Link.flowOnLeave { k with inbound := k.inbound.tail }

/-- Whether a link hands its inbound messages on. -/
def LinkState.serving : LinkState → Bool
  | .waiting | .up => true
  | _ => false

/-- Judge a message of a known kind against the link's state and role, and hand it to its unit (R154, R156). -/
def judgeMessage (l : LinkId) (k : Kind) (m : Message) (length : Nat) (handle : Message → Part → Part) (p : Part) : Part :=
  if Config.maxMessage < length then p.postLink l ⟨none, .refused (some m.code) .malformed none⟩
  else if (p.links.get l).state = .waiting then
    if k = .announce then handle m p else p.postLink l ⟨m.tag, .refused none .notRole none⟩
  else if k = .announce then p.postLink l ⟨m.tag, .announceRefused .already⟩
  else
    match (p.links.get l).role with
    | some r => if permitted r k then handle m p else p.postLink l ⟨m.tag, .refused none .notRole none⟩
    | none => p.postLink l ⟨m.tag, .refused none .notRole none⟩

/-- The step of a message's kind: the Link Interface takes the message at the head of its inbound queue, when it is of that
kind, and the message leaves the queue. With no such message at the head nothing happens (log 2). -/
def takeMessage (l : LinkId) (k : Kind) (handle : Message → Part → Part) (p : Part) : Part :=
  if (p.links.get l).state.serving then
    match (p.links.get l).inbound with
    | [] => p
    | raw :: _ =>
      if kindOf (parse raw).code = some k then
        judgeMessage l k (parse raw) raw.length handle (p.updLink l Link.leave)
      else p
  else p

/-- The owning unit's part of a message: a malformed verdict is refused MALFORMED, in the form REFUSED, with no other effect
(R154); otherwise the message is handled. -/
def ifWellFormed (l : LinkId) (k : Kind) (f : Message → Part → Part) (m : Message) (p : Part) : Part :=
  if m.verdict k then f m p else p.refuseMsg l m .malformed

/-! ### Hand-overs between units -/

def Part.toClock (p : Part) (c : ClockId) (m : ToClock) : Part :=
  p.updChannels c (fun h => { h with accountToClock := h.accountToClock ++ [m] })
def Part.toAccount (p : Part) (c : ClockId) (m : ToAccount) : Part :=
  p.updChannels c (fun h => { h with clockToAccount := h.clockToAccount ++ [m] })
def Part.tellClock (p : Part) (c : ClockId) (m : ToClockFromSupply) : Part :=
  p.updChannels c (fun h => { h with supplyToClock := h.supplyToClock ++ [m] })
def Part.toSupply (p : Part) (c : ClockId) (lot : Nat) : Part :=
  p.updChannels c (fun h => { h with clockToSupply := h.clockToSupply ++ [lot] })
def Part.toDisplay (p : Part) (c : ClockId) (e : ClockEvent) : Part :=
  p.updChannels c (fun h => { h with clockToDisplay := h.clockToDisplay ++ [e] })
def Part.supplyToDisplay (p : Part) (c : ClockId) (e : SupplyEvent) : Part :=
  p.updChannels c (fun h => { h with supplyToDisplay := h.supplyToDisplay ++ [e] })
def Part.clockReport (p : Part) (c : ClockId) (r : Report) : Part :=
  p.updChannels c (fun h => { h with clockReports := h.clockReports ++ [r] })
def Part.accountReport (p : Part) (r : Report) : Part := { p with accountReports := p.accountReports ++ [r] }

/-- A hand-over to each of the four Clock Units. -/
def Part.toAllClocks (p : Part) (m : ToClock) : Part :=
  (((p.toClock .c1 m).toClock .c2 m).toClock .c3 m).toClock .c4 m

/-- Take the oldest hand-over of the Account Unit to a Clock Unit, when `f` knows it; else nothing happens (log 2). -/
def takeFromAccount (c : ClockId) (f : ToClock → Option (Part → Part)) (p : Part) : Part :=
  match (p.channels.get c).accountToClock with
  | [] => p
  | m :: rest =>
    match f m with
    | none => p
    | some g => g (p.updChannels c (fun h => { h with accountToClock := rest }))

/-- The same for the hand-overs of a Clock Unit to the Account Unit. -/
def takeFromClock (c : ClockId) (f : ToAccount → Option (Part → Part)) (p : Part) : Part :=
  match (p.channels.get c).clockToAccount with
  | [] => p
  | m :: rest =>
    match f m with
    | none => p
    | some g => g (p.updChannels c (fun h => { h with clockToAccount := rest }))

/-- The same for the Supply Unit's reports to a Clock Unit. -/
def takeFromSupply (c : ClockId) (f : ToClockFromSupply → Option (Part → Part)) (p : Part) : Part :=
  match (p.channels.get c).supplyToClock with
  | [] => p
  | m :: rest =>
    match f m with
    | none => p
    | some g => g (p.updChannels c (fun h => { h with supplyToClock := rest }))

/-- The same for a Clock Unit's events to the Display Unit. -/
def takeClockEvent (c : ClockId) (f : ClockEvent → Option (Part → Part)) (p : Part) : Part :=
  match (p.channels.get c).clockToDisplay with
  | [] => p
  | e :: rest =>
    match f e with
    | none => p
    | some g => g (p.updChannels c (fun h => { h with clockToDisplay := rest }))

/-- The same for the bid and outcome reports of a source. -/
def takeReport (src : ReportSource) (f : Report → Option (Part → Part)) (p : Part) : Part :=
  match src with
  | .account =>
    match p.accountReports with
    | [] => p
    | r :: rest =>
      match f r with
      | none => p
      | some g => g { p with accountReports := rest }
  | .clock c =>
    match (p.channels.get c).clockReports with
    | [] => p
    | r :: rest =>
      match f r with
      | none => p
      | some g => g (p.updChannels c (fun h => { h with clockReports := rest }))

/-! ### A clock's state and what it reports -/

/-- R27: a message to the CONSOLE link of a clock, when one is UP. -/
def Part.toConsole (p : Part) (c : ClockId) (b : OutBody) : Part := p.postRole (.console c) ⟨none, b⟩

/-- R66: the remaining and the sold units of the lot in a clock's run record, 0 and 0 when there is none (log 39). -/
def Part.lotUnits (p : Part) (c : ClockId) : Nat × Nat :=
  match (p.clocks.get c).run.lot.bind p.lot with
  | none => (0, 0)
  | some t => (t.remaining, t.sold)

/-- R27, R66: CLOCK STATE of a clock as it stands. -/
def Part.clockStateBody (p : Part) (c : ClockId) : ClockStateBody :=
  let k := p.clocks.get c
  { clock := c, state := k.state, run := k.run.run, lot := k.run.lot.getD 0, remaining := (p.lotUnits c).1,
    sold := (p.lotUnits c).2, position := k.run.position, price := k.run.price, dwell := k.run.dwell,
    pendingHold := k.run.pendingHold, pendingWithdrawal := k.run.pendingWithdrawal, holdCause := k.run.holdCause }

/-- R137: the lot of a clock report, when the run record holds one. -/
def Part.lotReport (p : Part) (c : ClockId) : Option LotReport :=
  match (p.clocks.get c).run.lot with
  | none => none
  | some id =>
    match p.lot id with
    | none => none
    | some t =>
      some { lot := id, product := t.product, grower := t.grower, cls := t.cls, remaining := t.remaining,
             stems := t.stems, minPurchase := t.minPurchase, minPrice := t.minPrice }

/-- R137: the clock report of a clock as it stands. -/
def Part.report (p : Part) (c : ClockId) : ClockReport :=
  let k := p.clocks.get c
  { state := k.state, run := k.run.run, position := k.run.position, price := k.run.price,
    lastAward := k.run.lastAward, lot := p.lotReport c }

/-- R27: at a change of clock state, CLOCK STATE goes to the console, a state event to the Display Unit and the activity to the
Account Unit. The other fields of the clock have been set before. -/
def enterState (c : ClockId) (st : ClockState) (p : Part) : Part :=
  let p := p.updClock c (fun k => { k with state := st })
  let p := p.toConsole c (.clockState (p.clockStateBody c))
  let p := p.toDisplay c (.state (p.report c))
  p.toAccount c (.activity st.active none)

end Sys2Proof.Machine
end

