-- ==== Sys2Proof/Machine/Desks.lean ====
section
/-! DEFINITION. Desks.lean: region maps and their two translations (R104, R105), bindings (R106), and LOGIN, LOGOUT, PRESENT and
the age expiry of a desk (R107 to R111). -/

namespace Sys2Proof.Machine

/-! ### Region maps (R104, R105) -/

/-- R105: the hall desk index of a local desk, none when it is unmapped. -/
def localToHall (m : List Region) (d : Nat) : Option Nat :=
  match m with
  | [] => none
  | r :: rest =>
    if d < r.size then (if r.base + d < Config.deskCount then some (r.base + d) else none)
    else localToHall rest (d - r.size)

/-- R104: whether a hall desk index is one of a region's mapped indices. -/
def Region.maps (r : Region) (i : Nat) : Bool :=
  decide (r.base ≤ i) && decide (i < r.base + r.size) && decide (i < Config.deskCount)

/-- R105: the local desk of a hall desk index, none when no region of the map holds it. -/
def hallToLocal (m : List Region) (i : Nat) : Option Nat :=
  match m with
  | [] => none
  | r :: rest => if r.maps i then some (i - r.base) else (hallToLocal rest i).map (fun d => d + r.size)

/-- R104: whether two regions share a mapped index. -/
def Region.meets (a b : Region) : Bool :=
  decide (max a.base b.base < min (min (a.base + a.size) (b.base + b.size)) Config.deskCount)

/-- R104, check 1: the sizes and bases of a map. -/
def mapOk (m : List Region) : Bool :=
  decide (1 ≤ m.length) && decide (m.length ≤ 4) &&
  m.all (fun r => decide (1 ≤ r.size) && decide (r.size ≤ 512) && decide (r.base ≤ 511))

/-- R104, check 2: no two regions of one map share an index. -/
def selfOverlap : List Region → Bool
  | [] => false
  | r :: rest => rest.any r.meets || selfOverlap rest

/-- R104, check 3: two maps share an index. -/
def mapsMeet (a b : List Region) : Bool := a.any (fun r => b.any r.meets)

/-- R106: the desk target of a hall desk index: the link whose region map holds it, and the local desk there. -/
def Part.deskTarget (p : Part) (i : Nat) : Option DeskTarget :=
  linkIds.findSome? (fun l =>
    match p.account.groups.get l with
    | none => none
    | some g => (hallToLocal g.map i).map (fun d => ⟨l, d⟩))

/-- R63, R106: the desk target of the desk a buyer is bound to as the binding stands, none when the buyer is unbound. -/
def Part.boundTarget (p : Part) (buyer : Nat) : Option DeskTarget := ((p.buyer buyer).bind Buyer.desk).bind p.deskTarget

/-- R105: the hall desk index that a local desk of a link stands for. -/
def Part.hallDesk (p : Part) (l : LinkId) (d : Nat) : Option Nat :=
  match p.account.groups.get l with
  | none => none
  | some g => localToHall g.map d

/-- R43: the clock of a desk group's message: its CLOCK qualifier's, else the link's default clock. -/
def Part.clockFor (p : Part) (l : LinkId) (m : Message) : Option ClockId :=
  match m.clock with
  | some n => clockOf n
  | none => (p.account.groups.get l).map DeskGroup.defaultClock

/-! ### Bindings (R106) -/

/-- R110: a desk's activity time is set to the time base's value. -/
def refreshDesk (i : Nat) (p : Part) : Part :=
  p.updAccount (fun a => { a with desks := a.desks.modify i (fun b => { b with activity := p.now }) })

/-- A buyer is bound to a desk, with a fresh activity time. -/
def bindDesk (i buyer : Nat) (p : Part) : Part :=
  let p := p.updAccount (fun a => { a with desks := a.desks.put i ⟨buyer, p.now⟩ })
  p.updBuyer buyer (fun b => { b with desk := some i })

/-- The binding of a desk and its buyer is cleared, on both sides. -/
def unbindDesk (i buyer : Nat) (p : Part) : Part :=
  let p := p.updAccount (fun a => { a with desks := a.desks.del i })
  p.updBuyer buyer (fun b => { b with desk := none })

/-- LOGGED OUT to a desk, on the link that holds it. -/
def tellLoggedOut (i : Nat) (reason : LogoutReason) (buyer : Nat) (tag : Option Nat) (p : Part) : Part :=
  match p.deskTarget i with
  | none => p
  | some t => p.postUrgent t.link ⟨tag, .loggedOut t.desk reason buyer⟩

/-- R95, R103: an end request for a buyer goes to every Clock Unit and the buyer's order mark is cleared. -/
def sendEndRequests (buyer : Nat) (target : Option DeskTarget) (p : Part) : Part :=
  (p.updBuyer buyer (fun b => { b with orderMark := false })).toAllClocks (.endOrders buyer target)

/-- R87, R103: a buyer notice goes to every Clock Unit while the buyer's order mark is yes. -/
def sendNotices (buyer : Nat) (target : Option DeskTarget) (p : Part) : Part :=
  match p.buyer buyer with
  | none => p
  | some b =>
    if b.orderMark then
      p.toAllClocks (.notice { buyer := buyer, blocked := b.blocked, point := b.point, members := b.members,
                               target := target })
    else p

/-- The binding of a desk ends other than by a move: LOGGED OUT, then end requests with the desk target just left (R95). -/
def logOut (i buyer : Nat) (reason : LogoutReason) (tag : Option Nat) (p : Part) : Part :=
  let target := p.deskTarget i
  sendEndRequests buyer target (tellLoggedOut i reason buyer tag (unbindDesk i buyer p))

/-! ### LOGIN (R107, R108) -/

/-- REFUSED of a LOGIN, with the local desk (R107). Which desk the refusal of a malformed LOGIN carries is the model's choice (log 43):
the first two bytes of its body, and none when the body is shorter. -/
def refuseDesk (l : LinkId) (m : Message) (cause : Cause) (p : Part) : Part :=
  p.reply l m (.refused none cause (deskGiven m))

/-- R108: the desk's old buyer, if any, is logged out REPLACED. -/
def replaceOld (i : Nat) (p : Part) : Part :=
  match p.account.desks.find i with
  | none => p
  | some b => logOut i b.buyer .replaced none p

/-- R108: the buyer's old desk, if any, is released with LOGGED OUT MOVED. -/
def releaseOld (b : Buyer) (buyer : Nat) (p : Part) : Part :=
  match b.desk with
  | none => p
  | some e => tellLoggedOut e .moved buyer none (unbindDesk e buyer p)

/-- R108: the notice of a move. -/
def noticeIfMoved (b : Buyer) (buyer : Nat) (target : DeskTarget) (p : Part) : Part :=
  if b.desk.isSome then sendNotices buyer (some target) p else p

/-- R107: LOGGED IN of a buyer at a desk. -/
def loggedIn (d buyer : Nat) (b : Buyer) : OutBody := .loggedIn d buyer b.members b.blocked b.point

/-- R107, R108: a LOGIN that has passed its checks. -/
def bindLogin (l : LinkId) (m : Message) (d i buyer : Nat) (b : Buyer) (p : Part) : Part :=
  if b.desk = some i then (refreshDesk i p).reply l m (loggedIn d buyer b)
  else
    let p := releaseOld b buyer (replaceOld i p)
    (noticeIfMoved b buyer ⟨l, d⟩ (bindDesk i buyer p)).reply l m (loggedIn d buyer b)

/-- R107: the checks of a LOGIN. -/
def takeLogin (l : LinkId) (m : Message) (p : Part) : Part :=
  let d := fieldAt m.body 0 2
  let buyer := fieldAt m.body 2 3
  if !m.verdict .login || !deskOk m || decide (buyer < 1) || decide (999999 < buyer) then refuseDesk l m .malformed p
  else if p.account.hall.state ≠ .opened then refuseDesk l m .hallClosed p
  else
    match p.hallDesk l d with
    | none => refuseDesk l m .unmappedDesk p
    | some i =>
      match p.buyer buyer with
      | none => refuseDesk l m .unknownBuyer p
      | some b => bindLogin l m d i buyer b p

/-- LOGIN. -/
def execLogin (l : LinkId) (s : State) : Host.Outcome State Fault Refusal := run s (takeMessage l .login (takeLogin l))

/-! ### LOGOUT, PRESENT and aging (R109 to R111) -/

/-- The checks LOGOUT, PRESENT and CANCEL ORDER share (R94, R109, R110): well formed, mapped, bound. -/
def boundDesk (l : LinkId) (m : Message) (f : Nat → Nat → Part → Part) (p : Part) : Part :=
  if !deskOk m then p.refuseMsg l m .malformed
  else
    match p.hallDesk l (fieldAt m.body 0 2) with
    | none => p.refuseMsg l m .unmappedDesk
    | some i =>
      match p.account.desks.find i with
      | none => p.refuseMsg l m .notLoggedIn
      | some b => f i b.buyer p

/-- R109: LOGOUT of a bound desk. LOGGED OUT goes out on the arrival link and echoes the TAG. -/
def takeLogout (l : LinkId) (m : Message) (i buyer : Nat) (p : Part) : Part :=
  let d := fieldAt m.body 0 2
  let p := (unbindDesk i buyer p).reply l m (.loggedOut d .logout buyer)
  sendEndRequests buyer (some ⟨l, d⟩) p

/-- LOGOUT. -/
def execLogout (l : LinkId) (s : State) : Host.Outcome State Fault Refusal :=
  run s (takeMessage l .logout (ifWellFormed l .logout (fun m => boundDesk l m (takeLogout l m))))

/-- R110: PRESENT of a bound desk. -/
def takePresent (l : LinkId) (m : Message) (i buyer : Nat) (p : Part) : Part :=
  (refreshDesk i p).reply l m (.ack (.present (fieldAt m.body 0 2) buyer))

/-- PRESENT. -/
def execPresent (l : LinkId) (s : State) : Host.Outcome State Fault Refusal :=
  run s (takeMessage l .present (ifWellFormed l .present (fun m => boundDesk l m (takePresent l m))))

/-- R111: the age expiry of a bound desk, none when the desk is unbound or its link does not age. -/
def Part.ageEnd (p : Part) (i : Nat) : Option Nat :=
  match p.account.desks.find i with
  | none => none
  | some b =>
    match p.deskTarget i with
    | none => none
    | some t =>
      match p.account.groups.get t.link with
      | none => none
      | some g => if g.aging then some (b.activity + g.age * Config.minute) else none

/-- R111: at the age expiry of a desk its buyer is logged out AGED. -/
def ageStep (i : Nat) (p : Part) : Part :=
  match p.ageEnd i, p.account.desks.find i with
  | some t, some b => logOut i b.buyer .aged none (p.reach t)
  | _, _ => p

/-- AGE_EXPIRY. -/
def execAgeExpiry (desk : Nat) (s : State) : Host.Outcome State Fault Refusal := run s (ageStep desk)

end Sys2Proof.Machine
end

