-- ==== Sys2Proof/Machine/Prices.lean ====
section
/-! DEFINITION. Prices.lean: the arithmetic of prices and invoice lines (spec 04) and the clamping of bids (R47, R48, R30). -/

namespace Sys2Proof.Machine

/-- R69: the price of a run at a position, from its start price, price step and minimum price. -/
def priceAt (start step minimum position : Nat) : Nat :=
  if position * step ≤ start - minimum then start - position * step else minimum

/-- R70: the first floor position, the span divided by the step and rounded up. -/
def firstFloor (start step minimum : Nat) : Nat := (start - minimum + step - 1) / step

/-- R74: the restart price, the award price raised by the markup times the step, up to the ceiling. -/
def restartPriceOf (award markup step ceiling : Nat) : Nat := min (award + markup * step) ceiling

/-- R30: the start price of a run on a lot, by its ceiling, the restart price and the price START carries. -/
def startPriceOf (suggested minimum : Nat) (ceiling restart given : Option Nat) : Nat :=
  match ceiling with
  | none =>
    match given with
    | none => suggested
    | some g => max g minimum
  | some top =>
    match given with
    | none => restart.getD top
    | some g => min (max g minimum) top

/-- R47: the pressed position clamped against the arrival position and the lag limit. -/
def clampPosition (arrival lag pressed : Nat) : Nat := max (arrival - lag) (min pressed arrival)

/-- R48: the asked quantity clamped against the minimum purchase m and the remaining units r. -/
def clampQuantity (m r asked : Nat) : Nat :=
  let q := min (max asked m) r
  if q < r ∧ r - q < m then r else q

/-- R75: the gross of a line, in mils. -/
def lineGross (price units stems : Nat) : Nat := price * (units * stems)

/-- R76: the goods of a line, in cents. -/
def lineGoods (price units stems : Nat) : Nat := (lineGross price units stems + 5) / 10

/-- R77: the commission of a line, in cents. -/
def lineCommission (goods rate : Nat) : Nat := (goods * rate + 5000) / 10000

/-- R75 to R78: the money of one line. -/
structure LineFigures where
  goods : Nat
  commission : Nat
  container : Nat
  lineFee : Nat
  total : Nat
  deriving DecidableEq, Repr

/-- R75 to R78: the figures of a line under a tariff entry. -/
def lineFigures (e : TariffEntry) (price units stems : Nat) : LineFigures :=
  let goods := lineGoods price units stems
  let commission := lineCommission goods e.rate
  { goods := goods, commission := commission, container := e.container * units, lineFee := e.lineFee,
    total := goods + commission + e.container * units + e.lineFee }

/-- R82: a tariff entry as loaded, each value lowered to its bound. -/
def TariffEntry.clamped (e : TariffEntry) : TariffEntry :=
  { rate := min e.rate 2500, container := min e.container 9999, lineFee := min e.lineFee 9999 }

/-- R82: the items of an entry that are clamped. -/
def TariffEntry.clampedItems (e : TariffEntry) : List TariffItem :=
  (if 2500 < e.rate then [.rate] else []) ++ (if 9999 < e.container then [.container] else []) ++
  (if 9999 < e.lineFee then [.lineFee] else [])

/-- R23: the range of a configuration parameter. -/
def Param.bounds : Param → Nat × Nat
  | .stridePeriod => (10, 250)
  | .priceStep => (1, 65535)
  | .stopWindow => (0, 120)
  | .lagLimit => (0, 15)
  | .floorDwell => (1, 255)
  | .restartMarkup => (0, 50)
  | .restartDelay => (200, 5000)
  | .frameDivisor => (1, 8)

/-- Store a parameter of the configuration. -/
def ClockConfig.setParam (k : ClockConfig) (p : Param) (v : Nat) : ClockConfig :=
  match p with
  | .stridePeriod => { k with stridePeriod := v }
  | .priceStep => { k with priceStep := v }
  | .stopWindow => { k with stopWindow := v }
  | .lagLimit => { k with lagLimit := v }
  | .floorDwell => { k with floorDwell := v }
  | .restartMarkup => { k with restartMarkup := v }
  | .restartDelay => { k with restartDelay := v }
  | .frameDivisor => { k with frameDivisor := v }

/-- R24: one parameter of a CLOCK CONFIGURE: kept when absent, else clamped to its range and stored. -/
def ClockConfig.take (k : ClockConfig) (item : Param × Option Nat) : ClockConfig :=
  match item.2 with
  | none => k
  | some v => k.setParam item.1 (clampTo item.1.bounds.1 item.1.bounds.2 v)

/-- R24: the configuration after a CLOCK CONFIGURE. -/
def ClockConfig.takeAll (k : ClockConfig) (items : List (Param × Option Nat)) : ClockConfig := items.foldl ClockConfig.take k

/-- R24: the parameters whose values were clamped. That they stand in the order of R23's table is the model's choice (log 46). -/
def clampedParams (items : List (Param × Option Nat)) : List Param :=
  items.filterMap (fun item =>
    match item.2 with
    | none => none
    | some v => if clampTo item.1.bounds.1 item.1.bounds.2 v = v then none else some item.1)

end Sys2Proof.Machine
end

