-- ==== Sys2Proof/Machine/Settlement.lean ====
section
/-! DEFINITION. Settlement.lean: the invoices and their sending (spec 07), the tariff (R81, R82) and the store-low warning (R118). -/

namespace Sys2Proof.Machine

/-! ### The invoice pool (R121 to R123) -/

/-- The invoice of a number in the pool. -/
def Account.invoice (a : Account) (n : InvoiceNumber) : Option Invoice := a.invoices.find? (fun i => decide (i.number = n))

/-- Change the invoice of a number. -/
def Account.updInvoice (a : Account) (n : InvoiceNumber) (f : Invoice → Invoice) : Account :=
  { a with invoices := a.invoices.map (fun i => if i.number = n then f i else i) }

/-- R122: whether a sequence names an invoice of a buyer and a day that is still in the pool. -/
def Account.sequenceHeld (a : Account) (day buyer sequence : Nat) : Bool := (a.invoice ⟨day, buyer, sequence⟩).isSome

/-- R122: the first sequence from one on that names none. The pool holds at most 256 invoices, so one more try finds it. -/
def Account.freeSequence (a : Account) (day buyer tries sequence : Nat) : Nat :=
  match tries with
  | 0 => sequence
  | t + 1 => if a.sequenceHeld day buyer sequence then a.freeSequence day buyer t (next16 sequence) else sequence

/-- R122: the skip. -/
def Account.skipSequence (a : Account) (day buyer sequence : Nat) : Nat :=
  a.freeSequence day buyer (a.invoices.length + 1) sequence

/-! ### Sending (R129, R130) -/

/-- The SETTLEMENT link, when it is UP and its peer has no WAIT in force. -/
def Part.settlementReady (p : Part) : Option LinkId :=
  (p.linkOf .settlement).filter (fun l => decide ((p.links.get l).peerWait = false))

/-- R129: the first CLOSED invoice in queue order. -/
def Account.firstClosed (a : Account) : Option Invoice :=
  a.settleQueue.findSome? (fun n => (a.invoice n).filter (fun i => decide (i.state = .closed)))

/-- R129: the account once an invoice begins: SENDING, its sent-before mark set, the cursor at its header. -/
def Account.beginSending (a : Account) (i : Invoice) : Account :=
  { (a.updInvoice i.number (fun x => { x with state := .sending, sentBefore := true })) with
    cursor := some { invoice := i.number, headerDue := true, placed := 0, markBefore := i.sentBefore } }

/-- R129: the start check. It answers the part with the invoice begun, or none when no invoice can begin. -/
def Part.tryBegin (p : Part) : Option Part :=
  match p.account.cursor, p.settlementReady, p.account.firstClosed with
  | none, some _, some i => some (p.updAccount (fun a => a.beginSending i))
  | _, _, _ => none

/-- R130: once the last line has been placed the invoice becomes AWAITING, the cursor is idle, and the start check is made. -/
def finishSending (n : InvoiceNumber) (p : Part) : Part :=
  let p := p.updAccount (fun a => { (a.updInvoice n (fun x => { x with state := .awaiting })) with cursor := none })
  (p.tryBegin).getD p

/-- R130: the next message of the SENDING invoice, and the part with the cursor moved on behind it. -/
def placeNext (l : LinkId) (k : Cursor) (i : Invoice) (p : Part) : Part :=
  if k.headerDue then
    let p := p.postBulk l ⟨none, .invoiceHeader i.number i.cause i.lines.length i.total k.markBefore⟩
    let p := p.updAccount (fun a => { a with cursor := some { k with headerDue := false } })
    if i.lines = [] then finishSending i.number p else p
  else
    let p :=
      match i.lines[k.placed]? with
      | none => p
      | some id =>
        match p.account.lines.find id with
        | none => p
        | some x => p.postBulk l ⟨none, .invoiceLine id x⟩
    let p := p.updAccount (fun a => { a with cursor := some { k with placed := k.placed + 1 } })
    if i.lines.length ≤ k.placed + 1 then finishSending i.number p else p

/-- R130: messages are placed while the bulk queue of the SETTLEMENT link has a free place. Each one fills a place, so the
number of places bounds the number of turns (log 31). -/
def pump (turns : Nat) (p : Part) : Part :=
  match turns with
  | 0 => p
  | t + 1 =>
    match p.account.cursor, p.linkOf .settlement with
    | some k, some l =>
      if (p.links.get l).bulk.length < Config.bulkCap then
        match p.account.invoice k.invoice with
        | none => p
        | some i => pump t (placeNext l k i p)
      else p
    | _, _ => p

/-- R129, R130: the start check, with the messages that an invoice which begins can place at once. -/
def startCheck (p : Part) : Part :=
  match p.tryBegin with
  | none => p
  | some q => pump Config.bulkCap q

/-! ### Closing (R125) -/

/-- R125: the records of an invoice's close. -/
def Account.close (a : Account) (n : InvoiceNumber) (cause : CloseCause) : Account :=
  let a := a.updInvoice n (fun x => { x with state := .closed, cause := some cause })
  { a with openList := a.openList.filter (fun x => decide (x ≠ n)),
           buyers := a.buyers.modify n.buyer (fun b => { b with openInvoice := none }),
           settleQueue := a.settleQueue ++ [n] }

/-- R125: an invoice is closed and the start check is made. -/
def closeInvoice (cause : CloseCause) (p : Part) (n : InvoiceNumber) : Part :=
  startCheck (p.updAccount (fun a => a.close n cause))

/-! ### The store-low warning (R118) -/

/-- EXCEPTION STORE_LOW with the free lines as they stand, to one clock's console when it is UP. -/
def warnConsole (p : Part) (c : ClockId) : Part := p.toConsole c (.storeLow p.account.freeLines)

/-- R118: the check after a line creation. -/
def warnStoreLow (p : Part) : Part :=
  if p.account.crossesStoreLow then
    clockIds.foldl warnConsole (p.updAccount (fun a => { a with storeLow := true }))
  else p

/-! ### Settlement's messages -/

/-- R82: the tariff entries and items a load clamps. Their order in the list, class by class and within a class rate, container fee,
line fee, is the model's choice (log 42): R82 gives none. -/
def clampedTariff (es : List TariffEntry) : List (Nat × TariffItem) :=
  es.zipIdx.flatMap (fun e => e.1.clampedItems.map (fun i => (e.2, i)))

/-- R82: TARIFF LOAD. -/
def takeTariffLoad (l : LinkId) (m : Message) (p : Part) : Part :=
  let es := readTariff m.body
  let g := next16 p.account.generation
  let p := p.updAccount (fun a => { a with tariff := some (es.map TariffEntry.clamped), generation := g })
  p.reply l m (.tariffLoaded g (clampedTariff es))

/-- TARIFF_LOAD. -/
def execTariffLoad (l : LinkId) (s : State) : Host.Outcome State Fault Refusal :=
  run s (takeMessage l .tariffLoad (ifWellFormed l .tariffLoad (takeTariffLoad l)))

/-- R126: the figures of the ACK to a CLOSE INVOICE. -/
def Part.closedAck (p : Part) (n : InvoiceNumber) : AckInfo :=
  match p.account.invoice n with
  | none => .closed n 0 0
  | some i => .closed n i.lines.length i.total

/-- R126: CLOSE INVOICE. -/
def takeCloseInvoice (l : LinkId) (m : Message) (p : Part) : Part :=
  match p.buyer (fieldAt m.body 0 3) with
  | none => p.refuseMsg l m .unknownBuyer
  | some b =>
    match b.openInvoice with
    | none => p.refuseMsg l m .noneOpen
    | some n => (closeInvoice .requested p n).reply l m (.ack (p.closedAck n))

/-- CLOSE_INVOICE. -/
def execCloseInvoice (l : LinkId) (s : State) : Host.Outcome State Fault Refusal :=
  run s (takeMessage l .closeInvoice (ifWellFormed l .closeInvoice (takeCloseInvoice l)))

/-- R131: the account after an invoice is settled. -/
def Account.settle (a : Account) (i : Invoice) : Account :=
  let a :=
    { a with
      buyers := a.buyers.modify i.number.buyer (fun b =>
        { b with exposure := b.exposure - i.total, lines := b.lines - i.lines.length }),
      lines := i.lines.foldl Table.del a.lines,
      settleQueue := a.settleQueue.filter (fun n => decide (n ≠ i.number)),
      invoices := a.invoices.filter (fun x => decide (x.number ≠ i.number)) }
  a.clearStoreLow

/-- R131: an AWAITING invoice is settled and answered with the exposure after the release. -/
def settle (l : LinkId) (m : Message) (i : Invoice) (p : Part) : Part :=
  let p := p.updAccount (fun a => a.settle i)
  let exposure := match p.buyer i.number.buyer with | none => 0 | some b => b.exposure
  p.reply l m (.ack (.settled i.number i.lines.length i.number.buyer exposure))

/-- R131, R132: SETTLED. -/
def takeSettled (l : LinkId) (m : Message) (p : Part) : Part :=
  match p.account.invoice (readInvoiceNumber m.body) with
  | none => p.refuseMsg l m .unknownInvoice
  | some i => if i.state = .awaiting then settle l m i p else p.refuseMsg l m .unknownInvoice

/-- SETTLED. -/
def execSettled (l : LinkId) (s : State) : Host.Outcome State Fault Refusal :=
  run s (takeMessage l .settled (ifWellFormed l .settled (takeSettled l)))

/-! ### Loss of the SETTLEMENT link (R133) -/

/-- R133: a SENDING or AWAITING invoice returns to CLOSED. -/
def Invoice.returned (i : Invoice) : Invoice :=
  if i.state = .sending ∨ i.state = .awaiting then { i with state := .closed } else i

/-- R133. -/
def settlementLost (p : Part) : Part :=
  p.updAccount (fun a => { a with invoices := a.invoices.map Invoice.returned, cursor := none })

end Sys2Proof.Machine
end

