-- ==== Sys2Proof/Machine/Hall.lean ====
section
/-! DEFINITION. Hall.lean: the hall day (spec 10): OPEN DAY, CLOSE DAY, the activity reports and the close of the hall. -/

namespace Sys2Proof.Machine

/-! ### Notices and DAY STATE -/

/-- R42: a hall notice goes to every Clock Unit. -/
def noticeHall (h : HallState) (p : Part) : Part := p.toAllClocks (.hall h)

/-- R163: the number of clocks whose activity is ACTIVE. -/
def Hall.activeCount (h : Hall) : Nat := (h.active.toList.filter id).length

/-- R167: DAY STATE as the account stands; at CLOSED with the invoices closed and the bindings dropped. -/
def Account.dayState (a : Account) (counts : Option (Nat × Nat)) : DayStateBody :=
  { hall := a.hall.state, day := a.hall.day, active := a.hall.activeCount, lines := a.lines.length,
    queued := a.settleQueue.length, closed := counts.map Prod.fst, dropped := counts.map Prod.snd }

/-- R167: DAY STATE goes to the SETTLEMENT, CONSOLE and SUPERVISION links that are UP. -/
def sendDayState (counts : Option (Nat × Nat)) (p : Part) : Part :=
  let m : OutMsg := ⟨none, .dayState (p.account.dayState counts)⟩
  let p := p.postRole .settlement m
  let p := clockIds.foldl (fun p c => p.postRole (.console c) m) p
  p.postRole .supervision m

/-- The hall record changed. -/
def Part.updHall (p : Part) (f : Hall → Hall) : Part := p.updAccount (fun a => { a with hall := f a.hall })

/-! ### OPEN DAY (R164) and CLOSE DAY (R165) -/

/-- R164, R122: every buyer's sequence starts at 1, raised past the invoices of the day still in the pool. -/
def Account.resetSequences (a : Account) (day : Nat) : Account :=
  { a with buyers := a.buyers.map (fun e => (e.1, { e.2 with sequence := a.skipSequence day e.1 1 })) }

/-- R164: the hall opens. -/
def openDay (l : LinkId) (m : Message) (day : Nat) (p : Part) : Part :=
  let p := p.updHall (fun h => { h with day := day, mark := some p.now })
  let p := p.updAccount (fun a => a.resetSequences day)
  let p := p.updHall (fun h => { h with state := .opened })
  (sendDayState none (noticeHall .opened p)).reply l m (.ack (.day day))

/-- R164, R174: OPEN DAY. -/
def takeOpenDay (l : LinkId) (m : Message) (p : Part) : Part :=
  let day := fieldAt m.body 0 2
  if day = 0 then p.refuseMsg l m .malformed
  else if p.account.hall.state ≠ .closed then p.refuseMsg l m .busy
  else if p.account.generation = 0 then p.refuseMsg l m .noTariff
  else openDay l m day p

/-- OPEN_DAY. -/
def execOpenDay (l : LinkId) (s : State) : Host.Outcome State Fault Refusal :=
  run s (takeMessage l .openDay (ifWellFormed l .openDay (takeOpenDay l)))

/-- R165: the hall goes to CLOSING. -/
def startClosing (l : LinkId) (m : Message) (p : Part) : Part :=
  let p := p.updHall (fun h => { h with state := .closing, answered := PerClock.const false })
  (sendDayState none (noticeHall .closing p)).reply l m (.ack .plain)

/-- R165: CLOSE DAY. -/
def takeCloseDay (l : LinkId) (m : Message) (p : Part) : Part :=
  match p.account.hall.state with
  | .closed => p.refuseMsg l m .hallClosed
  | .closing => p.refuseMsg l m .busy
  | .opened => startClosing l m p

/-- CLOSE_DAY. -/
def execCloseDay (l : LinkId) (s : State) : Host.Outcome State Fault Refusal :=
  run s (takeMessage l .closeDay (ifWellFormed l .closeDay (takeCloseDay l)))

/-! ### Activity reports (R163, R165, R166) -/

/-- R113: a bound desk is dropped at day close, with LOGGED OUT and no end request. -/
def dropForDay (p : Part) (e : Nat × Binding) : Part :=
  tellLoggedOut e.1 .dayClosed e.2.buyer none (unbindDesk e.1 e.2.buyer p)

/-- R113: every desk is unbound, in index order (log 21), and every order mark is cleared. -/
def unbindAll (p : Part) : Part :=
  let p := p.account.desks.foldl dropForDay p
  p.updAccount (fun a => { a with buyers := a.buyers.mapAll (fun b => { b with orderMark := false }) })

/-- R127: every OPEN invoice is closed, in the order of the open list. -/
def closeAllInvoices (p : Part) : Part := p.account.openList.foldl (closeInvoice .dayClosed) p

/-- R166: the hall becomes CLOSED. The start check is made also where no invoice was OPEN. -/
def becomeClosed (p : Part) : Part :=
  let counts := (p.account.openList.length, p.account.desks.length)
  let p := p.updHall (fun h => { h with state := .closed })
  sendDayState (some counts) (noticeHall .closed (startCheck (closeAllInvoices (unbindAll p))))

/-- R163, R165: what an activity report writes in the hall record. -/
def Hall.report (h : Hall) (c : ClockId) (active : Bool) (answers : Option HallState) : Hall :=
  let answered := decide (h.state = .closing) && decide (answers = some .closing)
  { h with active := h.active.upd c (fun _ => active),
           answered := h.answered.upd c (fun was => was || answered) }

/-- R166: whether a CLOSING hall has come to rest. -/
def Hall.atRest (h : Hall) : Bool :=
  decide (h.state = .closing) && h.answered.toList.all id && h.active.toList.all (fun a => !a)

/-- R165, R166: an activity report. -/
def takeActivity (c : ClockId) (active : Bool) (answers : Option HallState) (p : Part) : Part :=
  let p := p.updHall (fun h => h.report c active answers)
  if p.account.hall.atRest then becomeClosed p else p

/-- ACTIVITY_REPORT. -/
def execActivityReport (c : ClockId) (s : State) : Host.Outcome State Fault Refusal :=
  run s (takeFromClock c (fun | .activity active answers => some (takeActivity c active answers) | _ => none))

end Sys2Proof.Machine
end

