-- ==== Sys2Proof/Machine/Accounts.lean ====
section
/-! DEFINITION. Accounts.lean: the buyer table (R97 to R103) and reservations (R115 to R117). -/

namespace Sys2Proof.Machine

/-! ### The buyer table -/

/-- R97: the record BUYER SET creates. -/
def Buyer.fresh (limit : Nat) (members : ClockSet) (point : Nat) : Buyer :=
  { limit := limit, exposure := 0, lines := 0, members := members, point := point, blocked := false, desk := none,
    openInvoice := none, sequence := 1, orderMark := false }

/-- R99: the record BUYER SET updates. -/
def Buyer.updated (b : Buyer) (limit : Nat) (members : ClockSet) (point : Nat) : Buyer :=
  { b with limit := limit, members := members, point := point }

/-- R99: BUYER SET for a record the table holds. -/
def updateBuyer (l : LinkId) (m : Message) (id : Nat) (b : Buyer) (p : Part) : Part :=
  let given := fieldAt m.body 3 6
  let limit := min given Config.maxCredit
  let p := p.updBuyer id (fun x => x.updated limit (clockSetOf (fieldAt m.body 9 1)) (fieldAt m.body 10 2))
  (sendNotices id none p).reply l m (.ack (.buyerSet id false (decide (limit ≠ given)) b.exposure))

/-- R97, R99: BUYER SET for a new record. -/
def createBuyer (l : LinkId) (m : Message) (id : Nat) (p : Part) : Part :=
  let given := fieldAt m.body 3 6
  let limit := min given Config.maxCredit
  let b := Buyer.fresh limit (clockSetOf (fieldAt m.body 9 1)) (fieldAt m.body 10 2)
  (p.updAccount (fun a => { a with buyers := a.buyers.put id b })).reply l m
    (.ack (.buyerSet id true (decide (limit ≠ given)) 0))

/-- R99, R174: BUYER SET. -/
def takeBuyerSet (l : LinkId) (m : Message) (p : Part) : Part :=
  let id := fieldAt m.body 0 3
  if id < 1 ∨ 999999 < id ∨ 4095 < fieldAt m.body 10 2 then p.refuseMsg l m .malformed
  else
    match p.buyer id with
    | some b => updateBuyer l m id b p
    | none =>
      if p.account.buyers.length < Config.maxBuyers then createBuyer l m id p else p.refuseMsg l m .noRoom

/-- BUYER_SET. -/
def execBuyerSet (l : LinkId) (s : State) : Host.Outcome State Fault Refusal :=
  run s (takeMessage l .buyerSet (ifWellFormed l .buyerSet (takeBuyerSet l)))

/-- R100: what a removal does to the buyer's binding and orders. -/
def dropBuyer (id : Nat) (b : Buyer) (p : Part) : Part :=
  match b.desk with
  | some i => logOut i id .removed none p
  | none => if b.orderMark then sendEndRequests id none p else p

/-- R100: BUYER REMOVE. -/
def takeBuyerRemove (l : LinkId) (m : Message) (p : Part) : Part :=
  let id := fieldAt m.body 0 3
  match p.buyer id with
  | none => p.refuseMsg l m .unknownBuyer
  | some b =>
    if 0 < b.lines then p.refuseMsg l m .busy
    else
      ((dropBuyer id b p).updAccount (fun a => { a with buyers := a.buyers.del id })).reply l m (.ack .plain)

/-- BUYER_REMOVE. -/
def execBuyerRemove (l : LinkId) (s : State) : Host.Outcome State Fault Refusal :=
  run s (takeMessage l .buyerRemove (ifWellFormed l .buyerRemove (takeBuyerRemove l)))

/-- R101: CREDIT LIMIT. -/
def takeCreditLimit (l : LinkId) (m : Message) (p : Part) : Part :=
  let id := fieldAt m.body 0 3
  let given := fieldAt m.body 3 6
  let limit := min given Config.maxCredit
  match p.buyer id with
  | none => p.refuseMsg l m .unknownBuyer
  | some b =>
    (p.updBuyer id (fun x => { x with limit := limit })).reply l m
      (.ack (.creditLimit id limit (decide (limit ≠ given)) b.exposure))

/-- CREDIT_LIMIT. -/
def execCreditLimit (l : LinkId) (s : State) : Host.Outcome State Fault Refusal :=
  run s (takeMessage l .creditLimit (ifWellFormed l .creditLimit (takeCreditLimit l)))

/-- R102: BLOCK and UNBLOCK set the blocked flag; a change sends the buyer notice. -/
def setBlocked (l : LinkId) (flag : Bool) (m : Message) (p : Part) : Part :=
  let id := fieldAt m.body 0 3
  match p.buyer id with
  | none => p.refuseMsg l m .unknownBuyer
  | some b =>
    let p := if b.blocked = flag then p else sendNotices id none (p.updBuyer id (fun x => { x with blocked := flag }))
    p.reply l m (.ack (.blocked id flag))

/-- BLOCK. -/
def execBlock (l : LinkId) (s : State) : Host.Outcome State Fault Refusal :=
  run s (takeMessage l .block (ifWellFormed l .block (setBlocked l true)))

/-- UNBLOCK. -/
def execUnblock (l : LinkId) (s : State) : Host.Outcome State Fault Refusal :=
  run s (takeMessage l .unblock (ifWellFormed l .unblock (setBlocked l false)))

/-! ### Reservations (R115, R116) -/

/-- R79: the tariff entry of a product class; with no tariff loaded it reads 0 (no run reaches that: log 26). -/
def Account.tariffEntry (a : Account) (cls : Nat) : TariffEntry := ((a.tariff.getD [])[cls]?).getD ⟨0, 0, 0⟩

/-- R79: the figures of a reservation's line under the tariff in force. -/
def Account.figures (a : Account) (r : Reservation) : LineFigures :=
  lineFigures (a.tariffEntry r.cls) r.price r.quantity r.stems

/-- R115: the conditions in order; the first met is the cause of the refusal. -/
def Account.refusesReservation (a : Account) (r : Reservation) : Option Cause :=
  match a.buyers.find r.buyer with
  | none => some .blocked
  | some b =>
    if b.blocked then some .blocked
    else if b.limit < (a.figures r).total + b.exposure then some .credit
    else if Config.maxLines ≤ a.lines.length then some .storeFull
    else if b.openInvoice = none ∧ Config.maxInvoices ≤ a.invoices.length then some .noInvoice
    else none

/-- R122: the number an invoice takes when it opens. -/
def Account.nextInvoice (a : Account) (buyer : Nat) (b : Buyer) : InvoiceNumber := ⟨a.hall.day, buyer, b.sequence⟩

/-- R116, R122: an invoice opens for a buyer, and the buyer's sequence is raised. -/
def Account.openInvoiceFor (a : Account) (buyer : Nat) (b : Buyer) : Account :=
  let n := a.nextInvoice buyer b
  let i : Invoice := { number := n, state := .opened, lines := [], total := 0, cause := none, sentBefore := false }
  let a := { a with invoices := a.invoices ++ [i], openList := a.openList ++ [n] }
  let next := a.skipSequence n.day buyer (next16 b.sequence)
  { a with buyers := a.buyers.modify buyer (fun x => { x with openInvoice := some n, sequence := next }) }

/-- R116: the account with the buyer's open invoice, opened when there is none, and its number. -/
def Account.withOpenInvoice (a : Account) (buyer : Nat) (b : Buyer) : Account × InvoiceNumber :=
  match b.openInvoice with
  | some n => (a, n)
  | none => (a.openInvoiceFor buyer b, a.nextInvoice buyer b)

/-- R119: the place a new line takes. -/
def Account.freePlace (a : Account) : Nat := a.lines.lowestFree 1

/-- R124: the award time at a moment of the time base. -/
def Account.awardTime (a : Account) (now : Nat) : Nat := (now - a.hall.mark.getD 0) % Config.awardTimeWrap

/-- R120: the line of a reservation from a clock. -/
def Account.lineOf (a : Account) (c : ClockId) (r : Reservation) (n : InvoiceNumber) (number now : Nat) : Line :=
  let f := a.figures r
  { invoice := n, number := number, lot := r.lot, clock := c, run := r.run, product := r.product, grower := r.grower,
    cls := r.cls, units := r.quantity, stems := r.stems, price := r.price, goods := f.goods,
    commission := f.commission, container := f.container, lineFee := f.lineFee, total := f.total,
    generation := a.generation, awardTime := a.awardTime now }

/-- R116: the line is filed: in the store, on the invoice, and on the buyer's exposure and line count. -/
def Account.fileLine (a : Account) (place : Nat) (x : Line) (buyer : Nat) : Account :=
  let a := a.updInvoice x.invoice (fun i => { i with lines := i.lines ++ [place], total := i.total + x.total })
  { a with lines := a.lines.put place x,
           buyers := a.buyers.modify buyer (fun b => { b with exposure := b.exposure + x.total, lines := b.lines + 1 }) }

/-- The number of lines an invoice holds. -/
def Account.lineCount (a : Account) (n : InvoiceNumber) : Nat :=
  match a.invoice n with
  | none => 0
  | some i => i.lines.length

/-- R116: a granted reservation is carried out: the line is created, a 48th line closes the invoice, the store-low check is
made, and GRANT is answered. -/
def grantReservation (c : ClockId) (r : Reservation) (b : Buyer) (p : Part) : Part :=
  let place := p.account.freePlace
  let (a, n) := p.account.withOpenInvoice r.buyer b
  let p := p.updAccount (fun _ => a.fileLine place (a.lineOf c r n (a.lineCount n + 1) p.now) r.buyer)
  let p := if Config.maxInvoiceLines ≤ p.account.lineCount n then closeInvoice .linesFull p n else p
  (warnStoreLow p).toClock c (.grant place)

/-- R115: a reservation is judged and answered. -/
def takeReservation (c : ClockId) (r : Reservation) (p : Part) : Part :=
  match p.account.refusesReservation r, p.buyer r.buyer with
  | some cause, _ => p.toClock c (.refuse cause)
  | none, some b => grantReservation c r b p
  | none, none => p.toClock c (.refuse .blocked)

/-- RESERVATION. -/
def execReservation (c : ClockId) (s : State) : Host.Outcome State Fault Refusal :=
  run s (takeFromClock c (fun | .reservation r => some (takeReservation c r) | _ => none))

end Sys2Proof.Machine
end

