-- ==== Sys2Proof/Machine/Display.lean ====
section
/-! DEFINITION. Display.lean: the Display Unit (spec 08): clock views, frames and their cadence, change notices and snapshots; and the
supervisor's mirror (R169, R170). -/

namespace Sys2Proof.Machine

/-- The Display Unit's state of a clock, changed. -/
def Part.updView (p : Part) (c : ClockId) (f : DisplayClock → DisplayClock) : Part :=
  p.updDisplay (fun d => { d with clocks := d.clocks.upd c f })

/-- The Display Unit's state of a clock. -/
def Part.displayClock (p : Part) (c : ClockId) : DisplayClock := p.display.clocks.get c

/-! ### Views (R136, R137) -/

/-- R136: the lot fields of a view when no lot is held. -/
def LotReport.absent : LotReport :=
  { lot := 0, product := 0, grower := 0, cls := 0, remaining := 0, stems := 0, minPurchase := 0, minPrice := 0 }

/-- R137: a report is copied into the view; the next lot id is the Supply Unit's. -/
def View.copy (v : View) (r : ClockReport) : View :=
  let t := r.lot.getD LotReport.absent
  { state := r.state, run := r.run, lot := t.lot, product := t.product, grower := t.grower, cls := t.cls,
    remaining := t.remaining, stems := t.stems, minPurchase := t.minPurchase, minPrice := t.minPrice,
    position := r.position, price := r.price, lastAward := r.lastAward, nextLot := v.nextLot }

/-! ### Frames (R139, R140, R143) -/

/-- R140: the frame of a view, with a sequence and a tier. -/
def View.frame (v : View) (c : ClockId) (sequence : Nat) (tier : Tier) : Frame :=
  { clock := c, sequence := sequence, state := v.state, lot := v.lot, product := v.product, grower := v.grower,
    cls := v.cls, remaining := v.remaining, stems := v.stems, minPurchase := v.minPurchase, run := v.run,
    position := v.position, price := v.price, atFloor := v.floorFlag, lastAward := v.lastAward, tier := tier }

/-- R139: a frame with its price, position, sequence and tier left out of account. -/
def Frame.compared (f : Frame) : Frame := { f with sequence := 0, position := 0, price := 0, tier := .fast }

/-- R139: whether the view now gives a frame that differs from the last composed one. -/
def DisplayClock.changed (d : DisplayClock) (c : ClockId) : Bool :=
  decide ((d.view.frame c 0 .fast).compared ≠ d.frame.compared)

/-- R143: a frame is offered to a link that is UP in the DISPLAY role and shows its clock. -/
def offerFrame (f : Frame) (p : Part) (l : LinkId) : Part :=
  match p.display.clockSets.get l with
  | none => p
  | some set =>
    if p.serves l .display && set.get f.clock then p.updLink l (fun k => k.putFrame f) else p

/-- R140: the clock's state once a frame of a tier is composed. -/
def DisplayClock.composed (d : DisplayClock) (c : ClockId) (tier : Tier) : DisplayClock :=
  { d with sequence := next16 d.sequence, frame := d.view.frame c (next16 d.sequence) tier, tier := tier }

/-- R140: a frame is composed and offered to the DISPLAY links. -/
def composeFrame (c : ClockId) (tier : Tier) (p : Part) : Part :=
  let p := p.updView c (fun d => d.composed c tier)
  linkIds.foldl (offerFrame (p.displayClock c).frame) p

/-! ### Cadence (R139, R141, R142) -/

/-- R142: the timed tier by the time since the last change. -/
def timedTier (since : Nat) : Tier :=
  if since < Config.slowAfter then .steady else if since < Config.dormantAfter then .slow else .dormant

/-- R142: the period of a timed tier; FAST has none. -/
def Tier.period : Tier → Nat
  | .fast => 0
  | .steady => Config.steadyPeriod
  | .slow => Config.slowPeriod
  | .dormant => Config.dormantPeriod

/-- R141, R142: the cadence of a change: FAST stops the frame timer, a timed state starts it with 250 ms. -/
def DisplayClock.paced (d : DisplayClock) (now : Nat) : DisplayClock :=
  { d with lastChange := now, strideCount := 0,
           frameTimer := if d.view.state.fast then none else some (now + Config.steadyPeriod) }

/-- R139: a change composes a frame at once and sets the cadence; an event that changes nothing compared is none. -/
def ifChanged (c : ClockId) (p : Part) : Part :=
  let d := p.displayClock c
  if d.changed c then
    (composeFrame c (if d.view.state.fast then .fast else .steady) p).updView c (fun d => d.paced p.now)
  else p

/-! ### Accumulators and change notices (R145, R146) -/

/-- The accumulators of a clock on a link changed, when the link has a set. -/
def Part.updSet (p : Part) (l : LinkId) (c : ClockId) (f : Accumulator → Accumulator) : Part :=
  p.updDisplay (fun d => { d with sets := d.sets.upd l (fun s => s.map (fun t => t.upd c f)) })

/-- R145, R146: the flag of a clock is set on one link; from clear to set it queues a CHANGE NOTICE. -/
def flagLink (c : ClockId) (p : Part) (l : LinkId) : Part :=
  match p.display.sets.get l with
  | none => p
  | some t =>
    if (t.get c).changed then p
    else (p.updSet l c (fun a => { a with changed := true })).postUrgent l ⟨none, .changeNotice c⟩

/-- R145, R146: the flags of a clock are set on every link that has a set, in link order. -/
def setFlags (c : ClockId) (p : Part) : Part := linkIds.foldl (flagLink c) p

/-- R145: an award's units and count on every link that has a set. -/
def countAward (c : ClockId) (units : Nat) (p : Part) : Part :=
  linkIds.foldl (fun p l => p.updSet l c (fun a => a.award units)) p

/-! ### Events of the Clock Units (R137) and of the Supply Unit (R138) -/

/-- R145: whether a state event sets the flags: into IDLE, READY or HELD, or with a raised run number. -/
def stateSetsFlags (old : View) (r : ClockReport) : Bool :=
  decide (r.state = .idle) || decide (r.state = .ready) || decide (r.state = .held) || runRaised old.run r.run

/-- R137: a report is copied into a clock's view. -/
def copyReport (c : ClockId) (r : ClockReport) (p : Part) : Part :=
  p.updView c (fun d => { d with view := d.view.copy r })

/-- R137, R139, R145: a state event. -/
def takeStateEvent (c : ClockId) (r : ClockReport) (p : Part) : Part :=
  let flags := stateSetsFlags (p.displayClock c).view r
  let p := ifChanged c (copyReport c r p)
  if flags then setFlags c p else p

/-- STATE_EVENT. -/
def execStateEvent (c : ClockId) (s : State) : Host.Outcome State Fault Refusal :=
  run s (takeClockEvent c (fun | .state r => some (takeStateEvent c r) | _ => none))

/-- R141: in tier FAST a stride event raises the stride count; at the frame divisor a frame is composed and the count is 0. -/
def takeStrideEvent (c : ClockId) (r : ClockReport) (p : Part) : Part :=
  let p := copyReport c r p
  let d := p.displayClock c
  if d.tier = .fast then
    if d.divisor ≤ d.strideCount + 1 then (composeFrame c .fast p).updView c (fun d => { d with strideCount := 0 })
    else p.updView c (fun d => { d with strideCount := d.strideCount + 1 })
  else p

/-- STRIDE_EVENT. -/
def execStrideEvent (c : ClockId) (s : State) : Host.Outcome State Fault Refusal :=
  run s (takeClockEvent c (fun | .stride r => some (takeStrideEvent c r) | _ => none))

/-- R137, R139, R145: an award event. -/
def takeAwardEvent (c : ClockId) (r : ClockReport) (units : Nat) (p : Part) : Part :=
  setFlags c (countAward c units (ifChanged c (copyReport c r p)))

/-- AWARD_EVENT. -/
def execAwardEvent (c : ClockId) (s : State) : Host.Outcome State Fault Refusal :=
  run s (takeClockEvent c (fun | .award r units => some (takeAwardEvent c r units) | _ => none))

/-- R137: a divisor event. -/
def takeDivisorEvent (c : ClockId) (r : ClockReport) (v : Nat) (p : Part) : Part :=
  (copyReport c r p).updView c (fun d => { d with divisor := v, strideCount := 0 })

/-- DIVISOR_EVENT. -/
def execDivisorEvent (c : ClockId) (s : State) : Host.Outcome State Fault Refusal :=
  run s (takeClockEvent c (fun | .divisor r v => some (takeDivisorEvent c r v) | _ => none))

/-- R138: a Supply Unit event. -/
def takeSupplyEvent (c : ClockId) (e : SupplyEvent) (p : Part) : Part :=
  let p := p.updView c (fun d => { d with view := { d.view with nextLot := e.nextLot } })
  if e.withdrawal then setFlags c p else p

/-- R138, with the event taken off the Supply Unit's hand-overs. -/
def supplyEventStep (c : ClockId) (p : Part) : Part :=
  match (p.channels.get c).supplyToDisplay with
  | [] => p
  | e :: rest => takeSupplyEvent c e (p.updChannels c (fun h => { h with supplyToDisplay := rest }))

/-- SUPPLY_UNIT_EVENT. -/
def execSupplyUnitEvent (c : ClockId) (s : State) : Host.Outcome State Fault Refusal := run s (supplyEventStep c)

/-- R142: the frame timer of a clock expires: a frame is composed in the tier found now, and the timer restarts with its period. -/
def frameTimerStep (c : ClockId) (p : Part) : Part :=
  match (p.displayClock c).frameTimer with
  | none => p
  | some t =>
    let p := p.reach t
    let tier := timedTier (p.now - (p.displayClock c).lastChange)
    (composeFrame c tier p).updView c (fun d => { d with frameTimer := some (p.now + tier.period) })

/-- FRAME_TIMER_EXPIRY. -/
def execFrameTimerExpiry (c : ClockId) (s : State) : Host.Outcome State Fault Refusal := run s (frameTimerStep c)

/-! ### Snapshots (R147) -/

/-- R147: the current price of SNAPSHOT: the view's, and 0 in IDLE and READY. -/
def View.snapshotPrice (v : View) : Nat := if v.state = .idle ∨ v.state = .ready then 0 else v.price

/-- R147: SNAPSHOT of a clock from its view and a link's set. -/
def View.snapshot (v : View) (c : ClockId) (a : Accumulator) : SnapshotBody :=
  { clock := c, state := v.state, run := v.run, lot := v.lot, product := v.product, remaining := v.remaining,
    price := v.snapshotPrice, position := v.position, nextLot := v.nextLot, units := a.units, awards := a.awards }

/-- The accumulators of a link and clock; with no set they read 0 (no request on an UP DESK GROUP link meets that: log 26). -/
def Part.setOf (p : Part) (l : LinkId) (c : ClockId) : Accumulator :=
  match p.display.sets.get l with
  | none => Accumulator.zero
  | some t => t.get c

/-- R147: SNAPSHOT REQUEST. -/
def takeSnapshot (l : LinkId) (m : Message) (p : Part) : Part :=
  match p.clockFor l m with
  | none => p
  | some c =>
    let b := (p.displayClock c).view.snapshot c (p.setOf l c)
    (p.updSet l c (fun _ => Accumulator.zero)).postBulk l ⟨m.tag, .snapshot b⟩

/-- SNAPSHOT_REQUEST. -/
def execSnapshotRequest (l : LinkId) (s : State) : Host.Outcome State Fault Refusal :=
  run s (takeMessage l .snapshotRequest (ifWellFormed l .snapshotRequest (takeSnapshot l)))

/-! ### The mirror (R169, R170) -/

/-- R169: whether reports of a clock are copied. -/
def Part.mirrors (p : Part) (c : ClockId) : Bool :=
  match p.display.mirror with
  | none => false
  | some set => set.get c

/-- R169: BID COPY. -/
def copyBid (r : BidReport) (p : Part) : Part := if p.mirrors r.clock then p.postMirror ⟨none, .bidCopy r⟩ else p

/-- R170: OUTCOME COPY. -/
def copyOutcome (r : OutcomeReport) (p : Part) : Part :=
  if p.mirrors r.clock then p.postMirror ⟨none, .outcomeCopy r⟩ else p

/-- BID_COPY. -/
def execBidCopy (src : ReportSource) (s : State) : Host.Outcome State Fault Refusal :=
  run s (takeReport src (fun | .bid r => some (copyBid r) | _ => none))

/-- OUTCOME_COPY. -/
def execOutcomeCopy (src : ReportSource) (s : State) : Host.Outcome State Fault Refusal :=
  run s (takeReport src (fun | .outcome r => some (copyOutcome r) | _ => none))

end Sys2Proof.Machine
end

