-- ==== Sys2Proof/Machine/Logistics.lean ====
section
/-! DEFINITION. Logistics.lean: the Supply Unit (spec 01): manifests, arrivals, withdrawals, departures and lot done reports. -/

namespace Sys2Proof.Machine

/-! ### Shared operations of the Supply Unit -/

/-- R3: the done states. -/
def LotState.done : LotState → Bool
  | .soldOut | .closedUnsold | .withdrawn => true
  | _ => false

/-- Whether a lot is live and not done. -/
def Part.isOpen (p : Part) (id : Nat) : Bool :=
  match p.lot id with
  | some t => !t.state.done
  | none => false

/-- The lots of a list that are not done. -/
def Part.notDone (p : Part) (ids : List Nat) : List Nat := ids.filter p.isOpen

/-- R22: the lots of a list that SLOT STATUS counts as not done. A lot whose done report the Supply Unit has not taken is one of them,
though its Clock Unit has written its done state already (R29): a query taken before the last report shows at least one lot. -/
def Part.notReportedDone (p : Part) (c : ClockId) (ids : List Nat) : List Nat :=
  ids.filter (fun i => p.isOpen i || (p.channels.get c).clockToSupply.contains i)

/-- The FILLING train, if there is one (R1: at most one). -/
def Supply.filling (s : Supply) : Option (Nat × Train) := (s.trains.filter (fun e => decide (e.2.state = .filling))).head?

/-- Whether a lot stands PRESENTED or SELLING. -/
def Part.isPresented (p : Part) (id : Nat) : Bool :=
  match p.lot id with
  | some t => decide (t.state = .presented) || decide (t.state = .selling)
  | none => false

/-- R138: the next lot of a clock: the second lot of the queue when the head is PRESENTED or SELLING, otherwise the head; 0 when
there is none. -/
def Part.nextLot (p : Part) (c : ClockId) : Nat :=
  match p.supply.queues.get c with
  | [] => 0
  | h :: rest => if p.isPresented h then rest.head?.getD 0 else h

/-- The Supply Unit's change event of a clock (R138). -/
def Part.supplyEvent (p : Part) (c : ClockId) (withdrawal : Bool) : Part :=
  p.supplyToDisplay c { nextLot := p.nextLot c, withdrawal := withdrawal }

/-- R15, R20: the state of the queue head told to the Clock Unit: a PRESENTED head is named, else there is none. -/
def Part.tellHead (p : Part) (c : ClockId) : Part :=
  match p.supply.queues.get c with
  | [] => p.tellClock c .noPresentedHead
  | h :: _ =>
    match p.lot h with
    | some t => if t.state = .presented then p.tellClock c (.headLotPresented h) else p.tellClock c .noPresentedHead
    | none => p.tellClock c .noPresentedHead

/-- R12, R17: the FILLING train is taken back: its record and its staged trolley and lot records are freed. -/
def Supply.freeFilling (s : Supply) (id : Nat) : Supply :=
  { s with trains := s.trains.del id, trolleys := s.trolleys.keep (fun t => decide (t.state ≠ .staged)),
           lots := s.lots.keep (fun t => decide (t.state ≠ .staged)) }

/-- R10: a FILLING train is refused whole with a cause; the discard train id is set but for INCOMPLETE. -/
def refuseTrain (l : LinkId) (id : Nat) (t : Train) (cause : Cause) (p : Part) : Part :=
  let p := p.updSupply (fun s => s.freeFilling id)
  let p := p.updSupply (fun s => { s with discard := if cause = .incomplete then none else some id })
  p.postUrgent l ⟨t.tag, .trainRefused id cause⟩

/-- R19, R21, R22: DEPART ORDER of a trolley with its pick list, when the LOGISTICS link is UP. It carries no TAG, which after a
SLOT QUERY is the model's choice (log 45). -/
def issueDepart (id : Nat) (p : Part) : Part :=
  match p.trolley id with
  | none => p
  | some t => p.postRole .logistics ⟨none, .departOrder t.clock id t.picks⟩

/-- R19: a trolley becomes DEPARTING and DEPART ORDER is issued for it. -/
def makeDeparting (id : Nat) (p : Part) : Part :=
  issueDepart id (p.updTrolley id (fun t => { t with state := .departing }))

/-! ### Manifests (R7 to R11) -/

/-- R7, once the header is well formed and any FILLING train has been ended. -/
def checkHeader (l : LinkId) (m : Message) (id : Nat) (c : ClockId) (count : Nat) (p : Part) : Part :=
  if p.supply.trains.has id then p.refuseMsg l m .malformed
  else if Config.maxTrains ≤ p.supply.trains.length then
    (p.updSupply (fun s => { s with discard := some id })).reply l m (.trainRefused id .noRoom)
  else
    let t : Train := { clock := c, stated := count, taken := 0, state := .filling, live := 0, tag := m.tag, clamped := 0 }
    p.updSupply (fun s => { s with trains := s.trains.put id t })

/-- R7: TRAIN HEADER. -/
def takeTrainHeader (l : LinkId) (m : Message) (p : Part) : Part :=
  match readTrainHeader m.body with
  | none => p.refuseMsg l m .malformed
  | some (id, c, count) =>
    let p := p.updSupply (fun s => { s with discard := none })
    let p :=
      match p.supply.filling with
      | none => p
      | some (old, t) => refuseTrain l old t .incomplete p
    checkHeader l m id c count p

/-- TRAIN_HEADER. -/
def execTrainHeader (l : LinkId) (s : State) : Host.Outcome State Fault Refusal :=
  run s (takeMessage l .trainHeader (ifWellFormed l .trainHeader (takeTrainHeader l)))

/-- Whether a list repeats a number. -/
def hasRepeat : List Nat → Bool
  | [] => false
  | x :: rest => rest.contains x || hasRepeat rest

/-- R8: the checks of an entry in order, with the cause of the first that fails. -/
def entryProblem (s : Supply) (t : Train) (trolley : Nat) (count : Nat) (es : List LotEntry) : Option Cause :=
  if trolley = 0 || decide (count < 1) || decide (4 < count) || !es.all LotEntry.ok then some .malformed
  else if s.trolleys.has trolley || es.any (fun e => s.lots.has e.lot) || hasRepeat (es.map LotEntry.lot) then some .malformed
  else if decide (Config.maxTrolleys ≤ s.trolleys.length) || decide (Config.maxLots < s.lots.length + es.length) then some .noRoom
  else if Config.maxQueue < (s.queues.get t.clock).length
      + (s.lots.keep (fun x => decide (x.state = .staged))).length + es.length then some .noRoom
  else none

/-- R8, R68: the minimum purchase as staged. -/
def LotEntry.purchase (e : LotEntry) : Nat := min (max e.minPurchase 1) e.units

/-- R8, R68: the suggested start price as staged. -/
def LotEntry.startPrice (e : LotEntry) : Nat := min (max e.suggested e.minPrice) Config.maxPrice

/-- R9, R68: whether the lot counts among the clamped lots. -/
def LotEntry.clamps (e : LotEntry) : Bool := decide (e.purchase ≠ e.minPurchase) || decide (e.startPrice ≠ e.suggested)

/-- R3, R8: the lot record of an entry, as staged. -/
def LotEntry.staged (e : LotEntry) (trolley : Nat) (c : ClockId) : Lot :=
  { trolley := trolley, clock := c, grower := e.grower, product := e.product, cls := e.cls, announced := e.units,
    stems := e.stems, minPurchase := e.purchase, minPrice := e.minPrice, suggested := e.startPrice,
    remaining := e.units, sold := 0, state := .staged, ceiling := none }

/-- R8: an entry that passes every check is staged. -/
def stageEntry (id : Nat) (t : Train) (trolley : Nat) (es : List LotEntry) (s : Supply) : Supply :=
  let train : Train := { t with taken := t.taken + 1, clamped := t.clamped + (es.filter LotEntry.clamps).length }
  let record : Trolley :=
    { train := id, clock := t.clock, place := t.taken + 1, lots := es.map LotEntry.lot, state := .staged, picks := [] }
  { s with
    trains := s.trains.put id train,
    trolleys := s.trolleys.put trolley record,
    lots := es.foldl (fun ls e => Table.put ls e.lot (e.staged trolley t.clock)) s.lots }

/-- The trolleys of a train in the order of their places (1 to 16). -/
def Supply.trolleysOf (s : Supply) (train : Nat) : List (Nat × Trolley) :=
  (List.range 17).flatMap (fun i => s.trolleys.filter (fun e => decide (e.2.train = train) && decide (e.2.place = i)))

/-- The lots of a train in entry order: trolley by trolley and, within a trolley, in the order of its lot list. -/
def Supply.lotsOf (s : Supply) (train : Nat) : List Nat := (s.trolleysOf train).flatMap (fun e => e.2.lots)

/-- R9: the records of a train whose last entry has been staged, and the append to its clock's queue. -/
def Supply.admitTrain (s : Supply) (id : Nat) (t : Train) : Supply :=
  let lots := s.lotsOf id
  { s with
    trains := s.trains.put id ({ t with state := .admitted, live := t.stated }),
    trolleys := s.trolleys.mapAll (fun r => if r.state = .staged then { r with state := .announced } else r),
    lots := s.lots.mapAll (fun r => if r.state = .staged then { r with state := .announced } else r),
    queues := s.queues.upd t.clock (fun q => q ++ lots) }

/-- R9: admission, with TRAIN ACCEPTED and the change event when the clock's next lot changes. -/
def admitTrain (l : LinkId) (id : Nat) (t : Train) (p : Part) : Part :=
  let before := p.nextLot t.clock
  let count := (p.supply.lotsOf id).length
  let p := p.updSupply (fun s => s.admitTrain id t)
  let p := p.postUrgent l ⟨t.tag, .trainAccepted id t.clock t.stated count t.clamped⟩
  if p.nextLot t.clock = before then p else p.supplyEvent t.clock false

/-- R9: after an entry has been staged, the train is admitted when its entries are all taken. -/
def afterEntry (l : LinkId) (id : Nat) (p : Part) : Part :=
  match p.supply.trains.find id with
  | none => p
  | some t => if t.taken = t.stated then admitTrain l id t p else p

/-- R8, R10, R11: TROLLEY ENTRY. With no train FILLING an entry that names the discard train id is discarded without a reply also where
a value of it is one that R174 refuses: the model follows R11 there (log 51). -/
def takeTrolleyEntry (l : LinkId) (m : Message) (p : Part) : Part :=
  let id := fieldAt m.body 0 2
  match p.supply.filling with
  | none => if p.supply.discard = some id then p else p.refuseMsg l m .malformed
  | some (fid, t) =>
    if fid ≠ id then refuseTrain l fid t .malformed p
    else
      let es := readLotEntries m.body
      match entryProblem p.supply t (fieldAt m.body 2 2) (fieldAt m.body 4 1) es with
      | some cause => refuseTrain l fid t cause p
      | none => afterEntry l fid (p.updSupply (stageEntry fid t (fieldAt m.body 2 2) es))

/-- TROLLEY_ENTRY. -/
def execTrolleyEntry (l : LinkId) (s : State) : Host.Outcome State Fault Refusal :=
  run s (takeMessage l .trolleyEntry (ifWellFormed l .trolleyEntry (takeTrolleyEntry l)))

/-! ### Arrival (R13, R14) -/

/-- R14: the trolley's lots that are in the queue are moved to its head, in their own order. -/
def moveToHead (lots queue : List Nat) : List Nat :=
  queue.filter (fun i => lots.contains i) ++ queue.filter (fun i => !lots.contains i)

/-- R14: SEQUENCE NOTICE to the console when the head lot was not one of the trolley's. -/
def sequenceNotice (c : ClockId) (id : Nat) (t : Trolley) (p : Part) : Part :=
  match (p.supply.queues.get c).head? with
  | none => p
  | some h =>
    if t.lots.contains h then p
    else
      let moved := ((p.supply.queues.get c).filter (fun i => t.lots.contains i)).length
      let passed := match p.lot h with | some r => r.trolley | none => 0
      (p.updSupply (fun s => { s with queues := s.queues.upd c (moveToHead t.lots) })).toConsole c
        (.sequenceNotice c id moved passed)

/-- R13: a trolley with lots not done is presented. -/
def presentLots (c : ClockId) (id : Nat) (t : Trolley) (p : Part) : Part :=
  let p := sequenceNotice c id t p
  let p := p.updSupply (fun s =>
    { s with lots := s.lots.mapAll (fun r =>
        if r.trolley = id ∧ r.state = .announced then { r with state := .presented } else r) })
  (p.tellHead c).supplyEvent c false

/-- R13: the trolley takes the slot; with every lot done it departs at once, else its lots are presented. ACK comes last. -/
def arrive (l : LinkId) (m : Message) (c : ClockId) (id : Nat) (t : Trolley) (p : Part) : Part :=
  let p := p.updSupply (fun s => { s with slots := s.slots.upd c (fun _ => some id) })
  let p := p.updTrolley id (fun r => { r with state := .presented })
  let p := if (p.notDone t.lots).isEmpty then makeDeparting id p else presentLots c id t p
  p.reply l m (.ack .plain)

/-- R13, R174: TROLLEY ARRIVED. That a trolley id 0 or a clock outside 1 to 4 is refused MALFORMED (R174) before the checks of R13 is the
model's choice (log 52). -/
def takeTrolleyArrived (l : LinkId) (m : Message) (p : Part) : Part :=
  let id := fieldAt m.body 0 2
  match clockOf (fieldAt m.body 2 1) with
  | none => p.refuseMsg l m .malformed
  | some c =>
    if id = 0 then p.refuseMsg l m .malformed
    else
      match p.trolley id with
      | none => p.refuseMsg l m .unknownTrolley
      | some t =>
        if t.state = .staged then p.refuseMsg l m .unknownTrolley
        else if t.clock ≠ c then p.refuseMsg l m .wrongClock
        else if t.state ≠ .announced then p.refuseMsg l m .busy
        else if (p.supply.slots.get c).isSome then p.refuseMsg l m .occupied
        else arrive l m c id t p

/-- TROLLEY_ARRIVED. -/
def execTrolleyArrived (l : LinkId) (s : State) : Host.Outcome State Fault Refusal :=
  run s (takeMessage l .trolleyArrived (ifWellFormed l .trolleyArrived (takeTrolleyArrived l)))

/-! ### Withdrawal by logistics (R16, R17) -/

/-- R16: an ANNOUNCED lot is withdrawn: it leaves its queue, and the clock is told when it was the head lot. -/
def withdrawAnnounced (id : Nat) (t : Lot) (p : Part) : Part :=
  let wasHead := decide ((p.supply.queues.get t.clock).head? = some id)
  let p := p.updLot id (fun r => { r with state := .withdrawn, remaining := r.announced, sold := 0 })
  let p := p.updSupply (fun s => { s with queues := s.queues.upd t.clock (fun q => q.filter (fun i => decide (i ≠ id))) })
  let p := if wasHead then p.tellClock t.clock (.lotWithdrawn id t.announced) else p
  p.supplyEvent t.clock true

/-- R16, R174: LOT WITHDRAW. That lot id 0 is refused MALFORMED (R174) before UNKNOWN_LOT (R16) is the model's choice (log 52). -/
def takeLotWithdraw (l : LinkId) (m : Message) (p : Part) : Part :=
  let id := fieldAt m.body 0 4
  if id = 0 then p.refuseMsg l m .malformed
  else
    match p.lot id with
    | none => p.refuseMsg l m .unknownLot
    | some t =>
      if t.state = .staged then p.refuseMsg l m .unknownLot
      else if t.state ≠ .announced then p.refuseMsg l m .busy
      else (withdrawAnnounced id t p).reply l m (.ack .plain)

/-- LOT_WITHDRAW. -/
def execLotWithdraw (l : LinkId) (s : State) : Host.Outcome State Fault Refusal :=
  run s (takeMessage l .lotWithdraw (ifWellFormed l .lotWithdraw (takeLotWithdraw l)))

/-- R17: one lot of a withdrawn train: withdrawn when ANNOUNCED, else left as it is. -/
def withdrawIfAnnounced (p : Part) (id : Nat) : Part :=
  match p.lot id with
  | none => p
  | some t => if t.state = .announced then withdrawAnnounced id t p else p

/-- R17: the number of ANNOUNCED lots among those of a train. -/
def Part.announcedCount (p : Part) (ids : List Nat) : Nat :=
  (ids.filter (fun i => match p.lot i with | some t => decide (t.state = .announced) | none => false)).length

/-- R17: TRAIN WITHDRAW. The lots are taken in entry order (log 21). -/
def takeTrainWithdraw (l : LinkId) (m : Message) (p : Part) : Part :=
  let id := fieldAt m.body 0 2
  match p.supply.trains.find id with
  | none => p.refuseMsg l m .unknownTrain
  | some t =>
    if t.state = .filling then
      (p.updSupply (fun s => { s.freeFilling id with discard := some id })).reply l m (.ack .plain)
    else
      let ids := p.supply.lotsOf id
      (ids.foldl withdrawIfAnnounced p).reply l m (.ack (.lotsWithdrawn (p.announcedCount ids)))

/-- TRAIN_WITHDRAW. -/
def execTrainWithdraw (l : LinkId) (s : State) : Host.Outcome State Fault Refusal :=
  run s (takeMessage l .trainWithdraw (ifWellFormed l .trainWithdraw (takeTrainWithdraw l)))

/-! ### Departure (R20, R22) and lot done reports (R15) -/

/-- R20: the records a departed trolley leaves free, and its train's live count. -/
def Supply.depart (s : Supply) (id : Nat) (t : Trolley) : Supply :=
  let trains :=
    match s.trains.find t.train with
    | none => s.trains
    | some r => if r.live ≤ 1 then s.trains.del t.train else s.trains.put t.train ({ r with live := r.live - 1 })
  { s with slots := s.slots.upd t.clock (fun _ => none), trolleys := s.trolleys.del id,
           lots := t.lots.foldl Table.del s.lots, trains := trains }

/-- R20: TROLLEY DEPARTED. -/
def takeTrolleyDeparted (l : LinkId) (m : Message) (p : Part) : Part :=
  let id := fieldAt m.body 0 2
  match p.trolley id with
  | none => p.refuseMsg l m .unknownTrolley
  | some t =>
    match t.state with
    | .staged => p.refuseMsg l m .unknownTrolley
    | .announced => p.refuseMsg l m .busy
    | .presented => p.refuseMsg l m .busy
    | .departing => ((p.updSupply (fun s => s.depart id t)).reply l m (.ack .plain)).tellHead t.clock

/-- TROLLEY_DEPARTED. -/
def execTrolleyDeparted (l : LinkId) (s : State) : Host.Outcome State Fault Refusal :=
  run s (takeMessage l .trolleyDeparted (ifWellFormed l .trolleyDeparted (takeTrolleyDeparted l)))

/-- R22: SLOT QUERY. R22 gives an empty slot trolley id 0 and no more: that SLOT STATUS then carries no trolley state and 0 lots not
done is the model's choice (log 40), and so is that the DEPART ORDER behind it does not echo the query's TAG (log 45). -/
def takeSlotQuery (l : LinkId) (m : Message) (p : Part) : Part :=
  match clockOf (fieldAt m.body 0 1) with
  | none => p.refuseMsg l m .malformed
  | some c =>
    let queued := (p.supply.queues.get c).length
    match p.supply.slots.get c with
    | none => p.reply l m (.slotStatus c 0 none 0 queued)
    | some id =>
      match p.trolley id with
      | none => p.reply l m (.slotStatus c id none 0 queued)
      | some t =>
        let p := p.reply l m (.slotStatus c id (some t.state) (p.notReportedDone c t.lots).length queued)
        if t.state = .departing then issueDepart id p else p

/-- SLOT_QUERY. -/
def execSlotQuery (l : LinkId) (s : State) : Host.Outcome State Fault Refusal :=
  run s (takeMessage l .slotQuery (ifWellFormed l .slotQuery (takeSlotQuery l)))

/-- R15: the trolley in the slot becomes DEPARTING when every lot of its list is done. -/
def departIfDone (c : ClockId) (p : Part) : Part :=
  match p.supply.slots.get c with
  | none => p
  | some id =>
    match p.trolley id with
    | none => p
    | some t => if t.state = .presented ∧ (p.notDone t.lots).isEmpty then makeDeparting id p else p

/-- R15: a lot done report of a clock is taken. -/
def takeLotDone (c : ClockId) (lot : Nat) (p : Part) : Part :=
  let p := p.updSupply (fun s => { s with queues := s.queues.upd c (fun q => q.filter (fun i => decide (i ≠ lot))) })
  ((departIfDone c p).tellHead c).supplyEvent c false

/-- R15, with the report taken off the Clock Unit's hand-overs. -/
def lotDoneStep (c : ClockId) (p : Part) : Part :=
  match (p.channels.get c).clockToSupply with
  | [] => p
  | lot :: rest => takeLotDone c lot (p.updChannels c (fun h => { h with clockToSupply := rest }))

/-- LOT_DONE_REPORT. -/
def execLotDoneReport (c : ClockId) (s : State) : Host.Outcome State Fault Refusal := run s (lotDoneStep c)

end Sys2Proof.Machine
end

