-- ==== Sys2Proof/Machine/Awards.lean ====
section
/-! DEFINITION. Awards.lean: what the Clock Unit does with a lot, its candidates and its orders when they end (R29, R35, R56 to
R63, R92, R96): the operations that runs, bids and standing orders share, and the window's expiry, GRANT and REFUSE. -/

namespace Sys2Proof.Machine

/-! ### The lot being sold -/

/-- A lot record that is not held reads 0 in every field (no run reaches such a read: log 26). -/
def Lot.absent : Lot :=
  { trolley := 0, clock := .c1, grower := 0, product := 0, cls := 0, announced := 0, stems := 0, minPurchase := 0,
    minPrice := 0, suggested := 0, remaining := 0, sold := 0, state := .staged, ceiling := none }

/-- The id of the lot of a clock's run record, 0 when there is none. -/
def Part.saleId (p : Part) (c : ClockId) : Nat := (p.clocks.get c).run.lot.getD 0

/-- The record of the lot a clock is selling. -/
def Part.saleLot (p : Part) (c : ClockId) : Lot := (p.lot (p.saleId c)).getD Lot.absent

/-- The picks of the trolley in a clock's slot. -/
def Part.slotPicks (p : Part) (c : ClockId) : List Pick :=
  match p.supply.slots.get c with
  | none => []
  | some id => match p.trolley id with | none => [] | some t => t.picks

/-- R69: the price of a clock's run at a position. -/
def RunRecord.priceOf (r : RunRecord) (position : Nat) : Nat :=
  priceAt (r.startPrice.getD 0) (r.step.getD 0) (r.minPrice.getD 0) position

/-- Whether the current price is the minimum price, that is, the frozen position is at the floor (R35, R69). -/
def RunRecord.atFloor (r : RunRecord) : Bool := decide (r.minPrice = some r.price)

/-! ### Ends of orders and candidates -/

/-- The order of a number in a clock's table. -/
def ClockUnit.orderNumbered (k : ClockUnit) (n : Nat) : Option Order := k.orders.find? (fun o => decide (o.number = n))

/-- A buyer's order in a clock's table (R84: at most one). -/
def ClockUnit.orderOf (k : ClockUnit) (buyer : Nat) : Option Order := k.orders.find? (fun o => decide (o.buyer = buyer))

/-- R96: an order leaves the table, and its ORDER ENDED is handed over for a desk target. -/
def endOrder (c : ClockId) (o : Order) (reason : EndReason) (target : DeskTarget) (tag : Option Nat) (p : Part) : Part :=
  let p := p.updClock c (fun k => { k with orders := k.orders.filter (fun x => decide (x.number ≠ o.number)) })
  p.toAccount c (.orderEnded target.link tag
    { clock := c, number := o.number, buyer := o.buyer, product := o.product, reason := reason, count := o.count,
      desk := target.desk })

/-- The origin of a candidate as messages carry it. -/
def CandOrigin.origin : CandOrigin → Origin
  | .pressed _ _ => .pressed
  | .order n => .order n

/-- The TAG a candidate's outcome echoes (R60, R63: that of a pressed bid). -/
def CandOrigin.tag : CandOrigin → Option Nat
  | .pressed _ t => t
  | .order _ => none

/-- R170: the outcome report of a candidate. -/
def Part.outcomeReport (p : Part) (c : ClockId) (x : Candidate) (o : OutcomeKind) : Report :=
  .outcome { clock := c, run := (p.clocks.get c).run.run, lot := p.saleId c, buyer := x.buyer, origin := x.origin.origin,
             position := x.position, quantity := x.quantity, outcome := o }

/-- R63: BID REFUSED of a candidate. R63 gives the run number the bid quoted; a standing order's candidate quoted none (R85), and that it
carries the clock's current run is the model's choice (log 41). A pressed candidate quoted that run too (R45). -/
def Part.candidateRefusal (p : Part) (c : ClockId) (cause : Cause) (x : Candidate) : BidRefusedBody :=
  { clock := some c, run := some (p.clocks.get c).run.run, cause := cause, origin := some x.origin.origin,
    clamped := some (x.position, x.quantity) }

/-- R92: a refusal CREDIT ends the order that a candidate names, when it is still in the table. -/
def endIfCredit (c : ClockId) (cause : Cause) (x : Candidate) (p : Part) : Part :=
  match x.origin, cause with
  | .order n, .credit =>
    match (p.clocks.get c).orderNumbered n with
    | some o => endOrder c o .credit o.target none p
    | none => p
  | _, _ => p

/-- R63, R92, R170: a candidate is refused: its BID REFUSED is handed over, the mirror is told, and a CREDIT ends its order.
`offered` is the price of its reservation, if one was sent. -/
def refuseCandidate (c : ClockId) (offered : Option Nat) (cause : Cause) (p : Part) (x : Candidate) : Part :=
  let p := p.toAccount c (.outcome x.buyer x.origin.tag (.refused (p.candidateRefusal c cause x)))
  let p := p.clockReport c (p.outcomeReport c x (.refused cause offered))
  endIfCredit c cause x p

/-- Candidates refused one after another, in list order. -/
def refuseAll (c : ClockId) (cause : Cause) (xs : List Candidate) (p : Part) : Part :=
  xs.foldl (refuseCandidate c none cause) p

/-! ### A lot is done (R29) -/

/-- The lot state of a done outcome. -/
def LotOutcome.lotState : LotOutcome → LotState
  | .soldOut => .soldOut
  | .closedUnsold => .closedUnsold
  | .withdrawn => .withdrawn

/-- R29: the run record of a clock whose lot is done; the last award and the run number stay (R25). -/
def RunRecord.cleared (r : RunRecord) : RunRecord :=
  { r with lot := none, startPrice := none, step := none, minPrice := none, position := 0, price := 0, dwell := 0,
           restartPrice := none, heldFrom := none, holdCause := none, pendingHold := false, pendingWithdrawal := false }

/-- R29: the Clock Unit's timers are stopped and its run record is cleared. -/
def ClockUnit.cleared (k : ClockUnit) : ClockUnit :=
  { k with strideTimer := none, windowTimer := none, restartTimer := none, run := k.run.cleared }

/-- R29: LOT CLOSED of a lot done on the clock. -/
def Part.lotClosedBody (p : Part) (c : ClockId) (id : Nat) (o : LotOutcome) : LotClosedBody :=
  let t := (p.lot id).getD Lot.absent
  { lot := id, outcome := o, origin := .console, remaining := t.remaining, sold := t.sold,
    run := some (p.clocks.get c).run.run }

/-- R29: the lot of a clock becomes done, the clock enters IDLE, and the console and the Supply Unit are told. -/
def lotDone (c : ClockId) (o : LotOutcome) (p : Part) : Part :=
  let id := p.saleId c
  let p := p.updLot id (fun t => { t with state := o.lotState })
  let p := p.updClock c ClockUnit.cleared
  let p := enterState c .idle p
  (p.toConsole c (.lotClosed (p.lotClosedBody c id o))).toSupply c id

/-! ### Ends of a decision (R35) -/

/-- The clock starts its stride timer with the stride period as it stands. -/
def startStride (c : ClockId) (p : Part) : Part :=
  p.updClock c (fun k => { k with strideTimer := some (p.now + k.config.stridePeriod) })

/-- The clock starts its restart timer with the restart delay as it stands (R36). -/
def startRestart (c : ClockId) (p : Part) : Part :=
  p.updClock c (fun k => { k with restartTimer := some (p.now + k.config.restartDelay) })

/-- The state a held clock returns to. -/
def HeldFrom.state : HeldFrom → ClockState
  | .running => .running
  | .floor => .floor
  | .restart => .restart

/-- A pending hold applies: the clock enters HELD with the cause recorded when the hold was made pending (R35). -/
def applyHold (c : ClockId) (back : HeldFrom) (p : Part) : Part :=
  enterState c .held (p.updRun c (fun r => { r with heldFrom := some back, pendingHold := false }))

/-- R25, R68, R71: the current price of a clock that goes to READY with a SELLING lot. R71 leaves it unchanged until the next run start, R25
and R68 have it 0 there; which of the two holds is a free value (log 11). -/
def RunRecord.readyPrice (r : RunRecord) : Nat := if Config.readyKeepsPrice then r.price else 0

/-- A clock with a SELLING lot goes to READY (R35, R42): position and dwell count are 0 there (R25). -/
def enterReady (c : ClockId) (p : Part) : Part :=
  let p := p.updClock c (fun k => { k with restartTimer := none })
  enterState c .ready (p.updRun c (fun r => { r with position := 0, price := r.readyPrice, dwell := 0 }))

/-- The clock enters RESTART with its timer running (R36). -/
def enterRestart (c : ClockId) (p : Part) : Part := enterState c .restart (startRestart c p)

/-- The candidate list is empty and no reservation is in flight when a decision ends (R59, R61). -/
def ClockUnit.endDecision (k : ClockUnit) : ClockUnit :=
  { k with candidates := [], arrivals := 0, tried := 0, inFlight := none }

/-- R35, R61: the decision ends with no award. -/
def noAward (c : ClockId) (p : Part) : Part :=
  let p := p.updClock c ClockUnit.endDecision
  let r := (p.clocks.get c).run
  if r.pendingWithdrawal then lotDone c .withdrawn p
  else if r.pendingHold then applyHold c (if r.atFloor then .floor else .running) p
  else enterState c (if r.atFloor then .floor else .running) (startStride c p)

/-- R35, R74: the decision ends with an award at a price. -/
def afterAward (c : ClockId) (price : Nat) (p : Part) : Part :=
  let p := p.updClock c ClockUnit.endDecision
  if (p.saleLot c).remaining = 0 then lotDone c .soldOut p
  else
    let k := p.clocks.get c
    let again := restartPriceOf price k.config.restartMarkup (k.run.step.getD 0) ((p.saleLot c).ceiling.getD price)
    let p := p.updRun c (fun r => { r with restartPrice := some again, dwell := 0 })
    if k.run.pendingWithdrawal then lotDone c .withdrawn p
    else if k.run.pendingHold then applyHold c .restart p
    else if k.run.hallView = .opened then enterRestart c p
    else enterReady c p

/-! ### The decision (R56 to R58) -/

/-- R56: whether the trolley's pick list has a pick for a buyer and delivery point, or room for one. -/
def pickRoom (picks : List Pick) (buyer point : Nat) : Bool :=
  picks.any (fun k => decide (k.buyer = buyer) && decide (k.point = point)) || decide (picks.length < Config.maxPicks)

/-- R57: the reservation of a candidate at a price. -/
def Part.reservationFor (p : Part) (c : ClockId) (x : Candidate) (price : Nat) : Reservation :=
  let t := p.saleLot c
  { buyer := x.buyer, lot := p.saleId c, product := t.product, grower := t.grower, cls := t.cls, stems := t.stems,
    price := price, quantity := x.quantity, run := (p.clocks.get c).run.run }

/-- R57: a reservation is sent for a candidate, at the price of its position. -/
def sendReservation (c : ClockId) (x : Candidate) (p : Part) : Part :=
  let price := (p.clocks.get c).run.priceOf x.position
  let p := p.updClock c (fun k => { k with inFlight := some price })
  p.toAccount c (.reservation (p.reservationFor c x price))

/-- R56: the untried candidates in turn: one without pick room is refused PICKS_FULL, for the first other a reservation is sent;
with none left the decision ends with no award. -/
def tryCandidates (c : ClockId) (xs : List Candidate) (p : Part) : Part :=
  match xs with
  | [] => noAward c p
  | x :: rest =>
    if pickRoom (p.slotPicks c) x.buyer x.point then sendReservation c x p
    else
      tryCandidates c rest (refuseCandidate c none .picksFull (p.updClock c (fun k => { k with tried := k.tried + 1 })) x)

/-- R55: the window expires: AWARDING is entered and the decision begins. -/
def expireWindow (c : ClockId) (p : Part) : Part :=
  let p := p.updClock c (fun k => { k with windowTimer := none, tried := 0 })
  let p := enterState c .awarding p
  tryCandidates c (p.clocks.get c).candidates p

/-- R53: a stop window of 0 ms expires at the end of the handling that opens it. -/
def expireIfZero (c : ClockId) (p : Part) : Part :=
  if (p.clocks.get c).state = .window ∧ (p.clocks.get c).config.stopWindow = 0 then expireWindow c p else p

/-- R55, at the end of the window timer. -/
def windowStep (c : ClockId) (p : Part) : Part :=
  match (p.clocks.get c).windowTimer with
  | none => p
  | some t => if (p.clocks.get c).state = .window then expireWindow c (p.reach t) else p

/-- WINDOW_EXPIRY. -/
def execWindowExpiry (c : ClockId) (s : State) : Host.Outcome State Fault Refusal := run s (windowStep c)

/-- The candidates not yet decided, the one whose reservation is in flight first. -/
def ClockUnit.undecided (k : ClockUnit) : List Candidate := k.candidates.drop k.tried

/-- R58, after the refusal of the candidate in flight. With a withdrawal pending the candidates not yet tried are refused WITHDRAWN; that
they are refused in list order is the model's choice (log 53): R58 names no order. -/
def afterRefusal (c : ClockId) (rest : List Candidate) (p : Part) : Part :=
  if (p.clocks.get c).run.pendingWithdrawal then noAward c (refuseAll c .withdrawn rest p)
  else tryCandidates c rest p

/-- R58: REFUSE is taken while a reservation is in flight. -/
def takeRefuse (c : ClockId) (cause : Cause) (p : Part) : Part :=
  match (p.clocks.get c).undecided, (p.clocks.get c).inFlight with
  | x :: rest, some price =>
    let p := p.updClock c (fun k => { k with tried := k.tried + 1, inFlight := none })
    afterRefusal c rest (refuseCandidate c (some price) cause p x)
  | _, _ => p

/-- REFUSE. -/
def execRefuse (c : ClockId) (s : State) : Host.Outcome State Fault Refusal :=
  run s (takeFromAccount c (fun | .refuse cause => some (takeRefuse c cause) | _ => none))

/-! ### The award (R59, R60, R18) -/

/-- R18: an award is merged into a pick list. -/
def mergePick (picks : List Pick) (buyer point units : Nat) : List Pick :=
  if picks.any (fun k => decide (k.buyer = buyer) && decide (k.point = point)) then
    picks.map (fun k => if k.buyer = buyer ∧ k.point = point then { k with units := k.units + units } else k)
  else picks ++ [⟨buyer, point, units⟩]

/-- R18: the pick list of the trolley in a clock's slot takes an award. -/
def mergeSlotPick (c : ClockId) (x : Candidate) (p : Part) : Part :=
  match p.supply.slots.get c with
  | none => p
  | some id => p.updTrolley id (fun t => { t with picks := mergePick t.picks x.buyer x.point x.quantity })

/-- R60: AWARD NOTICE, with the units that remain after the award. -/
def Part.awardNotice (p : Part) (c : ClockId) (x : Candidate) (price line : Nat) : AwardNoticeBody :=
  { clock := c, run := (p.clocks.get c).run.run, lot := p.saleId c, buyer := x.buyer, point := x.point,
    origin := x.origin.origin, position := x.position, quantity := x.quantity, price := price,
    remaining := (p.saleLot c).remaining, line := line }

/-- R60: AWARD. -/
def Part.awardBody (p : Part) (c : ClockId) (x : Candidate) (price line : Nat) : AwardBody :=
  { clock := c, run := (p.clocks.get c).run.run, lot := p.saleId c, product := (p.saleLot c).product,
    position := x.position, quantity := x.quantity, price := price, line := line, origin := x.origin.origin }

/-- R92: a win lowers the count of the order that the candidate names; at 0 the order ends COMPLETE. -/
def countWin (c : ClockId) (x : Candidate) (p : Part) : Part :=
  match x.origin with
  | .pressed _ _ => p
  | .order n =>
    match (p.clocks.get c).orderNumbered n with
    | none => p
    | some o =>
      if o.count ≤ 1 then endOrder c { o with count := 0 } .complete o.target none p
      else
        p.updClock c (fun k =>
          { k with orders := k.orders.map (fun y => if y.number = n then { y with count := y.count - 1 } else y) })

/-- R59: the records an award writes: the lot's units, the trolley's picks and the last award. -/
def recordAward (c : ClockId) (x : Candidate) (price : Nat) (p : Part) : Part :=
  let p := p.updLot (p.saleId c) (fun t => { t with remaining := t.remaining - x.quantity, sold := t.sold + x.quantity })
  let p := mergeSlotPick c x p
  p.updRun c (fun r => { r with lastAward := some ⟨x.buyer, x.quantity, price⟩ })

/-- R60, R170: the messages, the event and the report an award makes. -/
def tellAward (c : ClockId) (x : Candidate) (price line : Nat) (p : Part) : Part :=
  let p := p.toConsole c (.awardNotice (p.awardNotice c x price line))
  let p := p.toAccount c (.outcome x.buyer x.origin.tag (.award (p.awardBody c x price line)))
  let p := p.toDisplay c (.award (p.report c) x.quantity)
  p.clockReport c (p.outcomeReport c x (.award price line))

/-- R59: GRANT is taken while a reservation is in flight. R60 and R92 put the OUTBID refusals and ORDER ENDED COMPLETE behind the
AWARD; that the refusals are handed over before ORDER ENDED is the model's choice (log 47). So is that the report of the award, for the
mirror, is handed over before the reports of those refusals (log 49): R60 orders the desks' messages alone. -/
def takeGrant (c : ClockId) (line : Nat) (p : Part) : Part :=
  match (p.clocks.get c).undecided, (p.clocks.get c).inFlight with
  | x :: rest, some price =>
    let p := tellAward c x price line (recordAward c x price p)
    let p := refuseAll c .outbid rest p
    afterAward c price (countWin c x p)
  | _, _ => p

/-- GRANT. -/
def execGrant (c : ClockId) (s : State) : Host.Outcome State Fault Refusal :=
  run s (takeFromAccount c (fun | .grant line => some (takeGrant c line) | _ => none))

end Sys2Proof.Machine
end

