-- ==== Sys2Proof/Machine/Bids.lean ====
section
/-! DEFINITION. Bids.lean: the path of a bid (spec 03): intake by the Account Unit, the Clock Unit's checks, clamping and entry in
the candidate list, and the delivery of outcomes. -/

namespace Sys2Proof.Machine

/-! ### Intake at the Account Unit (R43, R44, R85) -/

/-- A bid as the Account Unit has read it, with its arrival link and clock. -/
structure BidIn where
  link : LinkId
  clock : ClockId
  msg : Message
  body : BidBody
  deriving DecidableEq, Repr

/-- R43, R85: a BID with LIMIT is a placement. -/
def BidIn.isPlacement (b : BidIn) : Bool := b.msg.limit.isSome

/-- The origin a bid refused at intake carries: PRESSED, and for a placement a free value (log 17). -/
def BidIn.origin (b : BidIn) : Origin :=
  if b.isPlacement then (if Config.placementIsPressed then .pressed else .order 0) else .pressed

/-- R44, R169: the bid report of a bid refused at checks 2 to 6; the buyer id is 0 where none was found. -/
def BidIn.report (b : BidIn) (buyer : Nat) (cause : Cause) : Report :=
  .bid { clock := b.clock, buyer := buyer, target := some ⟨b.link, b.body.desk⟩, run := b.body.run,
         origin := some b.origin, pressed := b.body.pressed, asked := b.body.quantity, verdict := some cause,
         admission := none }

/-- R44: a bid is refused at checks 2 to 6, at once on its arrival link, and reported for the mirror. -/
def refuseBid (b : BidIn) (buyer : Nat) (cause : Cause) (p : Part) : Part :=
  let p := p.reply b.link b.msg (.bidRefused (some b.body.desk)
    { clock := some b.clock, run := some b.body.run, cause := cause, origin := some b.origin, clamped := none })
  p.accountReport (b.report buyer cause)

/-- R43: a bid that is not well formed is refused MALFORMED on its arrival link; it is not copied (R169). -/
def refuseMalformedBid (l : LinkId) (m : Message) (p : Part) : Part :=
  p.reply l m (.bidRefused (deskGiven m) { clock := none, run := none, cause := .malformed, origin := none, clamped := none })

/-- R44: an ordinary bid that has passed check 6 is handed to its Clock Unit. -/
def handBid (b : BidIn) (buyer : Nat) (r : Buyer) (p : Part) : Part :=
  p.toClock b.clock (.bid
    { buyer := buyer, point := r.point, target := ⟨b.link, b.body.desk⟩, run := b.body.run, pressed := b.body.pressed,
      asked := b.body.quantity, tag := b.msg.tag })

/-- R85, R103: a placement that has passed check 6 is handed to its Clock Unit, and the buyer's order mark is set. -/
def handPlacement (b : BidIn) (buyer : Nat) (r : Buyer) (p : Part) : Part :=
  let p := p.updBuyer buyer (fun x => { x with orderMark := true })
  p.toClock b.clock (.placement
    { buyer := buyer, point := r.point, target := ⟨b.link, b.body.desk⟩, product := b.body.product,
      limit := b.msg.limit.getD 0, asked := b.body.quantity, count := b.msg.repeats.getD 1,
      untilChange := b.msg.untilChange, tag := b.msg.tag })

/-- R44: checks 5 and 6, against the bound buyer's record. -/
def checkBuyer (b : BidIn) (buyer : Nat) (p : Part) : Part :=
  match p.buyer buyer with
  | none => refuseBid b 0 .notLoggedIn p
  | some r =>
    if r.blocked then refuseBid b buyer .blocked p
    else if r.members.get b.clock = false then refuseBid b buyer .notMember p
    else if b.isPlacement then handPlacement b buyer r p
    else handBid b buyer r p

/-- R44: checks 2 to 4; a mapped and bound desk is refreshed. -/
def checkDesk (b : BidIn) (p : Part) : Part :=
  if p.account.hall.state ≠ .opened then refuseBid b 0 .hallClosed p
  else
    match p.hallDesk b.link b.body.desk with
    | none => refuseBid b 0 .unmappedDesk p
    | some i =>
      match p.account.desks.find i with
      | none => refuseBid b 0 .notLoggedIn p
      | some d => checkBuyer b d.buyer (refreshDesk i p)

/-- R43: BID, whose format is judged first. -/
def takeBid (l : LinkId) (m : Message) (p : Part) : Part :=
  if m.verdict .bid && bidOk m then
    match p.clockFor l m with
    | none => refuseMalformedBid l m p
    | some c => checkDesk ⟨l, c, m, readBid m.body⟩ p
  else refuseMalformedBid l m p

/-- BID. -/
def execBid (l : LinkId) (s : State) : Host.Outcome State Fault Refusal := run s (takeMessage l .bid (takeBid l))

/-! ### The candidate list (R49 to R54) -/

/-- R49, R50: a candidate's place follows every candidate of a lower or an equal position. -/
def insertCandidate (x : Candidate) (ys : List Candidate) : List Candidate :=
  match ys with
  | [] => [x]
  | y :: rest => if x.position < y.position then x :: y :: rest else y :: insertCandidate x rest

/-- R49: a candidate is entered with the next arrival number. -/
def ClockUnit.enter (k : ClockUnit) (x : Candidate) : ClockUnit :=
  { k with candidates := insertCandidate { x with arrival := k.arrivals + 1 } k.candidates, arrivals := k.arrivals + 1 }

/-- R35, R53: the run is frozen and the window opens. -/
def openWindow (c : ClockId) (p : Part) : Part :=
  let p := p.updClock c (fun k =>
    { k with strideTimer := none, windowTimer := some (p.now + k.config.stopWindow) })
  enterState c .window p

/-- R50, R53: a candidate enters a list with room; the first of a run that descends opens the window. -/
def enterWithRoom (c : ClockId) (x : Candidate) (p : Part) : Part :=
  let st := (p.clocks.get c).state
  let p := p.updClock c (fun k => k.enter x)
  if st = .running ∨ st = .floor then openWindow c p else p

/-- R52: with a full list, a candidate that orders before the last displaces it; another is refused OUTBID. -/
def enterFull (c : ClockId) (x : Candidate) (p : Part) : Part :=
  match (p.clocks.get c).candidates.getLast? with
  | none => p
  | some last =>
    if x.position < last.position then
      refuseCandidate c none .outbid
        (p.updClock c (fun k => ({ k with candidates := k.candidates.dropLast } : ClockUnit).enter x)) last
    else refuseCandidate c none .outbid p x

/-- R50, R52: the entry of a candidate whose buyer is not in the list. -/
def enterCandidate (c : ClockId) (x : Candidate) (p : Part) : Part :=
  if (p.clocks.get c).candidates.length < Config.maxCandidates then enterWithRoom c x p else enterFull c x p

/-- R51: a candidate of a buyer who has one already replaces it from a lower position, and is refused DUPLICATE otherwise. -/
def enterAgain (c : ClockId) (x held : Candidate) (p : Part) : Part :=
  if x.position < held.position then
    p.updClock c (fun k =>
      ({ k with candidates := k.candidates.filter (fun y => decide (y.buyer ≠ x.buyer)) } : ClockUnit).enter x)
  else refuseCandidate c none .duplicate p x

/-- A buyer's candidate in the list (R49: at most one). -/
def ClockUnit.candidateOf (k : ClockUnit) (buyer : Nat) : Option Candidate :=
  k.candidates.find? (fun y => decide (y.buyer = buyer))

/-- R47, R48: an admitted bid as a candidate, clamped against the clock as it stands. -/
def Part.pressedCandidate (p : Part) (c : ClockId) (b : BidHandover) : Candidate :=
  let k := p.clocks.get c
  { buyer := b.buyer, point := b.point, origin := .pressed b.target b.tag,
    position := clampPosition k.run.position k.config.lagLimit b.pressed, asked := b.asked,
    quantity := clampQuantity (p.saleLot c).minPurchase (p.saleLot c).remaining b.asked, arrival := 0 }

/-- R45, R169: the bid report of a pressed bid at checks 7 and 8. -/
def pressedReport (c : ClockId) (b : BidHandover) (verdict : Option Cause) (a : Option Admission) : Report :=
  .bid { clock := c, buyer := b.buyer, target := some b.target, run := b.run, origin := some .pressed,
         pressed := b.pressed, asked := b.asked, verdict := verdict, admission := a }

/-- R45, R63: a bid refused at checks 7 and 8. -/
def refuseAdmitted (c : ClockId) (b : BidHandover) (cause : Cause) (p : Part) : Part :=
  let p := p.toAccount c (.outcome b.buyer b.tag (.refused
    { clock := some c, run := some b.run, cause := cause, origin := some .pressed, clamped := none }))
  p.clockReport c (pressedReport c b (some cause) none)

/-- R45, R47, R50, R51: a bid that passes checks 7 and 8 is clamped, reported and entered. The report of the admission stands before that
of a refusal its entry makes (log 50). -/
def admitBid (c : ClockId) (b : BidHandover) (p : Part) : Part :=
  let x := p.pressedCandidate c b
  let p := p.clockReport c (pressedReport c b none
    (some { arrival := (p.clocks.get c).run.position, clamped := x.position, quantity := x.quantity }))
  let p :=
    match (p.clocks.get c).candidateOf b.buyer with
    | some held => enterAgain c x held p
    | none => enterCandidate c x p
  expireIfZero c p

/-- R45: checks 7 and 8. -/
def takeAdmittedBid (c : ClockId) (b : BidHandover) (p : Part) : Part :=
  if b.run ≠ (p.clocks.get c).run.run then refuseAdmitted c b .wrongRun p
  else
    match (p.clocks.get c).state with
    | .running => admitBid c b p
    | .floor => admitBid c b p
    | .window => admitBid c b p
    | .awarding => refuseAdmitted c b .late p
    | .restart => refuseAdmitted c b .late p
    | .held => refuseAdmitted c b .late p
    | .idle => refuseAdmitted c b .notRunning p
    | .ready => refuseAdmitted c b .notRunning p

/-- ADMITTED_BID. -/
def execAdmittedBid (c : ClockId) (s : State) : Host.Outcome State Fault Refusal :=
  run s (takeFromAccount c (fun | .bid b => some (takeAdmittedBid c b) | _ => none))

/-! ### Delivery (R63) -/

/-- R63: the message of an outcome for a local desk. -/
def OutcomeBody.message (o : OutcomeBody) (desk : Nat) : OutBody :=
  match o with
  | .award a => .award desk a
  | .refused r => .bidRefused (some desk) r

/-- R63: an outcome goes to the desk the buyer is bound to as it is taken, or is not sent. -/
def deliver (buyer : Nat) (tag : Option Nat) (o : OutcomeBody) (p : Part) : Part :=
  match p.boundTarget buyer with
  | none => p
  | some t => p.postUrgent t.link ⟨tag, o.message t.desk⟩

/-- R86, R94: a Clock Unit's answer to a placement or a cancel, on the link it came on (log 8). R156 has it go out while the link
is "still UP"; a link lost and admitted again meanwhile, be it in another role, is UP again (the model's choice, log 44). -/
def deliverReply (t : DeskTarget) (tag : Option Nat) (r : DeskReply) (p : Part) : Part :=
  match r with
  | .placed o => p.postUrgent t.link ⟨tag, .orderPlaced o⟩
  | .ordersFull b => p.postUrgent t.link ⟨tag, .bidRefused (some t.desk) b⟩
  | .noOrder => p.postUrgent t.link ⟨tag, .refused none .noOrder none⟩

/-- R63, R86, R94: what a Clock Unit hands back for a desk. -/
def takeOutcome : ToAccount → Option (Part → Part)
  | .outcome buyer tag o => some (deliver buyer tag o)
  | .reply t tag r => some (deliverReply t tag r)
  | _ => none

/-- DELIVER_OUTCOME. -/
def execDeliverOutcome (c : ClockId) (s : State) : Host.Outcome State Fault Refusal := run s (takeFromClock c takeOutcome)

end Sys2Proof.Machine
end

