-- ==== Sys2Proof/Machine/Orders.lean ====
section
/-! DEFINITION. Orders.lean: standing orders (spec 05): placing, offering, notices and the ways an order ends. -/

namespace Sys2Proof.Machine

/-! ### Placing an order (R84, R86) -/

/-- Whether an order number is held by an order of the table or named by a candidate (R84). -/
def ClockUnit.numberHeld (k : ClockUnit) (n : Nat) : Bool :=
  k.orders.any (fun o => decide (o.number = n)) ||
  k.candidates.any (fun x => match x.origin with | .order i => decide (i = n) | .pressed _ _ => false)

/-- The first number from n on that is not held. At most 16 orders and 8 candidates hold one, so 25 tries find it. -/
def ClockUnit.freeNumber (k : ClockUnit) (tries n : Nat) : Nat :=
  match tries with
  | 0 => n
  | t + 1 => if k.numberHeld n then k.freeNumber t (next16 n) else n

/-- R84: the number the next placement takes. -/
def ClockUnit.takeNumber (k : ClockUnit) : Nat := k.freeNumber (Config.maxOrders + Config.maxCandidates + 1) k.nextOrder

/-- R84, R85: the order of a placement. -/
def PlacementHandover.order (h : PlacementHandover) (n : Nat) : Order :=
  { number := n, buyer := h.buyer, product := h.product, limit := h.limit, asked := h.asked, count := h.count,
    untilChange := h.untilChange, point := h.point, blocked := false, target := h.target, fired := false }

/-- R86: ORDER PLACED. -/
def PlacementHandover.placed (h : PlacementHandover) (c : ClockId) (n : Nat) (replaced : Option Nat) : OrderPlacedBody :=
  { clock := c, number := n, product := h.product, limit := h.limit, asked := h.asked, count := h.count,
    untilChange := h.untilChange, replaced := replaced, desk := h.target.desk }

/-- R86: a new order is appended and answered ORDER PLACED. -/
def appendOrder (c : ClockId) (h : PlacementHandover) (replaced : Option Nat) (p : Part) : Part :=
  let n := (p.clocks.get c).takeNumber
  let p := p.updClock c (fun k => { k with orders := k.orders ++ [h.order n], nextOrder := next16 n })
  p.toAccount c (.reply h.target h.tag (.placed (h.placed c n replaced)))

/-- R86: a placement finds the table full of other buyers' orders. Which run number and origin the refusal carries: log 17.
That the placement takes no order number, the per-clock count (R84) standing as it was, is the model's choice (log 48). -/
def refusePlacement (c : ClockId) (h : PlacementHandover) (p : Part) : Part :=
  p.toAccount c (.reply h.target h.tag (.ordersFull
    { clock := some c, run := none, cause := .ordersFull,
      origin := some (if Config.placementIsPressed then .pressed else .order 0), clamped := none }))

/-- R86: a placement. -/
def takePlacement (c : ClockId) (h : PlacementHandover) (p : Part) : Part :=
  match (p.clocks.get c).orderOf h.buyer with
  | some o => appendOrder c h (some o.number) (endOrder c o .replaced o.target none p)
  | none =>
    if (p.clocks.get c).orders.length < Config.maxOrders then appendOrder c h none p else refusePlacement c h p

/-- PLACEMENT. -/
def execPlacement (c : ClockId) (s : State) : Host.Outcome State Fault Refusal :=
  run s (takeFromAccount c (fun | .placement h => some (takePlacement c h) | _ => none))

/-! ### Offering a position (R88 to R90) -/

/-- An order's fired mark is set. -/
def markFired (c : ClockId) (n : Nat) (p : Part) : Part :=
  p.updClock c (fun k => { k with orders := k.orders.map (fun o => if o.number = n then { o with fired := true } else o) })

/-- R88: every order's fired mark is cleared at a run start. -/
def ClockUnit.clearFired (k : ClockUnit) : ClockUnit := { k with orders := k.orders.map (fun o => { o with fired := false }) }

/-- R90: the candidate of an order that fires. -/
def Part.orderCandidate (p : Part) (c : ClockId) (o : Order) : Candidate :=
  { buyer := o.buyer, point := o.point, origin := .order o.number, position := (p.clocks.get c).run.position,
    asked := o.asked, quantity := clampQuantity (p.saleLot c).minPurchase (p.saleLot c).remaining o.asked, arrival := 0 }

/-- R90, R169: the bid report of a candidate entered by an order (its run number and position: log 20). -/
def Part.orderReport (p : Part) (c : ClockId) (o : Order) (x : Candidate) : Report :=
  .bid { clock := c, buyer := o.buyer, target := none, run := (p.clocks.get c).run.run, origin := some (.order o.number),
         pressed := x.position, asked := o.asked, verdict := none,
         admission := some { arrival := x.position, clamped := x.position, quantity := x.quantity } }

/-- R90: an order fires. The report of the entry stands before that of a refusal OUTBID the entry makes (log 50). -/
def fireOrder (c : ClockId) (o : Order) (p : Part) : Part :=
  let x := p.orderCandidate c o
  enterCandidate c x ((markFired c o.number p).clockReport c (p.orderReport c o x))

/-- R89: the first three conditions, on the order, the lot and the price. -/
def Part.orderMatches (p : Part) (c : ClockId) (o : Order) : Bool :=
  decide (o.product = (p.saleLot c).product) && decide ((p.clocks.get c).run.price ≤ o.limit) && !o.fired

/-- R88, R89: one order is judged at the offered position. -/
def offerOrder (c : ClockId) (p : Part) (n : Nat) : Part :=
  match (p.clocks.get c).orderNumbered n with
  | none => p
  | some o =>
    if (p.clocks.get c).run.hallView ≠ .opened then p
    else if !p.orderMatches c o then p
    else if ((p.clocks.get c).candidateOf o.buyer).isSome then p
    else if o.blocked then markFired c n p
    else fireOrder c o p

/-- R88: the position is offered to the orders in table order; a stop window of 0 ms expires after the last (R53). -/
def offerPosition (c : ClockId) (p : Part) : Part :=
  expireIfZero c (((p.clocks.get c).orders.map Order.number).foldl (offerOrder c) p)

/-! ### Buyer notices, cancels and end requests (R87, R94, R95) -/

/-- R87: the copies of an order take the notified values. -/
def Order.notified (o : Order) (n : NoticeHandover) : Order :=
  { o with blocked := n.blocked, point := n.point, target := n.target.getD o.target }

/-- R87: a buyer notice. -/
def takeNotice (c : ClockId) (n : NoticeHandover) (p : Part) : Part :=
  match (p.clocks.get c).orderOf n.buyer with
  | none => p
  | some o =>
    if n.members.get c = false then endOrder c o .notMember o.target none p
    else
      p.updClock c (fun k =>
        { k with orders := k.orders.map (fun x => if x.buyer = n.buyer then x.notified n else x) })

/-- BUYER_NOTICE. -/
def execBuyerNotice (c : ClockId) (s : State) : Host.Outcome State Fault Refusal :=
  run s (takeFromAccount c (fun | .notice n => some (takeNotice c n) | _ => none))

/-- R94: CANCEL ORDER of a bound desk refreshes it and hands the request to the clock. -/
def takeCancelOrder (l : LinkId) (m : Message) (i buyer : Nat) (p : Part) : Part :=
  match p.clockFor l m with
  | none => p
  | some c => (refreshDesk i p).toClock c (.cancel buyer ⟨l, fieldAt m.body 0 2⟩ m.tag)

/-- CANCEL_ORDER. -/
def execCancelOrder (l : LinkId) (s : State) : Host.Outcome State Fault Refusal :=
  run s (takeMessage l .cancelOrder (ifWellFormed l .cancelOrder (fun m => boundDesk l m (takeCancelOrder l m))))

/-- R94: a cancel request ends the buyer's order, or is refused NO_ORDER. -/
def takeCancel (c : ClockId) (buyer : Nat) (target : DeskTarget) (tag : Option Nat) (p : Part) : Part :=
  match (p.clocks.get c).orderOf buyer with
  | some o => endOrder c o .cancelled target tag p
  | none => p.toAccount c (.reply target tag .noOrder)

/-- CANCEL_REQUEST. -/
def execCancelRequest (c : ClockId) (s : State) : Host.Outcome State Fault Refusal :=
  run s (takeFromAccount c (fun | .cancel buyer target tag => some (takeCancel c buyer target tag) | _ => none))

/-- R95: an end request ends the buyer's order with reason LOGOUT. -/
def takeEndRequest (c : ClockId) (buyer : Nat) (target : Option DeskTarget) (p : Part) : Part :=
  match (p.clocks.get c).orderOf buyer with
  | some o => endOrder c o .logout (target.getD o.target) none p
  | none => p

/-- END_REQUEST. -/
def execEndRequest (c : ClockId) (s : State) : Host.Outcome State Fault Refusal :=
  run s (takeFromAccount c (fun | .endOrders buyer target => some (takeEndRequest c buyer target) | _ => none))

/-- R94, R95, R96: whether an ORDER ENDED keeps to the desk target that its hand-over carries: at CANCELLED the arrival link and its
local desk, at LOGOUT the target of the end request. -/
def EndReason.keepsTarget : EndReason → Bool
  | .logout | .cancelled => true
  | _ => false

/-- R96, R106, R108: the desk target of an ORDER ENDED as it is sent: the desk the buyer is bound to as the binding then stands, and
the target of the hand-over for an unbound buyer and for the reasons that keep to it (log 27). -/
def Part.endedTarget (p : Part) (l : LinkId) (b : OrderEndedBody) : DeskTarget :=
  if b.reason.keepsTarget then ⟨l, b.desk⟩ else (p.boundTarget b.buyer).getD ⟨l, b.desk⟩

/-- R96: ORDER ENDED goes out on the link of its desk target, when that link is UP. -/
def sendOrderEnded (l : LinkId) (tag : Option Nat) (b : OrderEndedBody) (p : Part) : Part :=
  let t := p.endedTarget l b
  p.postUrgent t.link ⟨tag, .orderEnded { b with desk := t.desk }⟩

/-- R96: what a Clock Unit hands back of an order that has ended. A link lost and admitted again while it was in flight is UP again,
whatever its role (the model's choice, log 44). -/
def takeOrderEnded : ToAccount → Option (Part → Part)
  | .orderEnded l tag b => some (sendOrderEnded l tag b)
  | _ => none

/-- ORDER_ENDED. -/
def execOrderEnded (c : ClockId) (s : State) : Host.Outcome State Fault Refusal := run s (takeFromClock c takeOrderEnded)

/-- Orders of a list end one after another with a reason, each at its own desk target. -/
def endAll (c : ClockId) (reason : EndReason) (os : List Order) (p : Part) : Part :=
  os.foldl (fun p o => endOrder c o reason o.target none p) p

/-- R93: the change-of-product check against the head lot's product. -/
def changeOfProduct (c : ClockId) (p : Part) : Part :=
  endAll c .changed
    ((p.clocks.get c).orders.filter (fun o => o.untilChange && decide (o.product ≠ (p.saleLot c).product))) p

/-- R95: every order of the table ends DAY_CLOSED, in table order. -/
def endForDay (c : ClockId) (p : Part) : Part := endAll c .dayClosed (p.clocks.get c).orders p

end Sys2Proof.Machine
end

