-- ==== Sys2Proof/Machine/Runs.lean ====
section
/-! DEFINITION. Runs.lean: the clock run (spec 02): the head lot, the console's commands, strides, the restart delay and the hall
notices. -/

namespace Sys2Proof.Machine

/-! ### The head lot (R28, R29) -/

/-- R28: the run record of a clock that reaches READY with a head lot. -/
def RunRecord.ready (r : RunRecord) (lot minPrice : Nat) : RunRecord :=
  { r with lot := some lot, minPrice := some minPrice, lastAward := none, position := 0, price := 0, dwell := 0 }

/-- R28, R93: in IDLE a presented head lot moves the clock to READY, and the change-of-product check is made. -/
def takeHeadLot (c : ClockId) (lot : Nat) (p : Part) : Part :=
  if (p.clocks.get c).state = .idle then
    let least := ((p.lot lot).getD Lot.absent).minPrice
    changeOfProduct c (enterState c .ready (p.updRun c (fun r => r.ready lot least)))
  else p

/-- HEAD_LOT_PRESENTED. -/
def execHeadLotPresented (c : ClockId) (s : State) : Host.Outcome State Fault Refusal :=
  run s (takeFromSupply c (fun | .headLotPresented lot => some (takeHeadLot c lot) | _ => none))

/-- NO_PRESENTED_HEAD: the clock stays as it is (R29). -/
def execNoPresentedHead (c : ClockId) (s : State) : Host.Outcome State Fault Refusal :=
  run s (takeFromSupply c (fun | .noPresentedHead => some id | _ => none))

/-- R28: LOT CLOSED of a head lot withdrawn by logistics. -/
def logisticsClosed (lot remaining : Nat) : LotClosedBody :=
  { lot := lot, outcome := .withdrawn, origin := .logistics, remaining := remaining, sold := 0, run := none }

/-- R28: in IDLE, "lot withdrawn" sends LOT CLOSED with origin LOGISTICS. -/
def takeLotWithdrawn (c : ClockId) (lot remaining : Nat) (p : Part) : Part :=
  if (p.clocks.get c).state = .idle then p.toConsole c (.lotClosed (logisticsClosed lot remaining)) else p

/-- LOT_WITHDRAWN. -/
def execLotWithdrawn (c : ClockId) (s : State) : Host.Outcome State Fault Refusal :=
  run s (takeFromSupply c (fun | .lotWithdrawn lot n => some (takeLotWithdrawn c lot n) | _ => none))

/-! ### Console messages -/

/-- The Clock Unit that owns a message of a CONSOLE link is that of the role's clock (R156). -/
def onConsole (l : LinkId) (f : ClockId → Part → Part) (p : Part) : Part :=
  match (p.links.get l).role with
  | some (.console c) => f c p
  | _ => p

/-- R24: CLOCK CONFIGURE. -/
def takeConfigure (l : LinkId) (m : Message) (c : ClockId) (p : Part) : Part :=
  let k := p.clocks.get c
  if k.state = .idle ∨ k.state = .ready ∨ k.state = .held then
    let items := readConfigure m.body
    let config := k.config.takeAll items
    let p := p.updClock c (fun k => { k with config := config })
    let p := p.reply l m (.configured config (clampedParams items))
    if config.frameDivisor = k.config.frameDivisor then p
    else p.toDisplay c (.divisor (p.report c) config.frameDivisor)
  else p.refuseMsg l m .busy

/-- CLOCK_CONFIGURE. -/
def execClockConfigure (l : LinkId) (s : State) : Host.Outcome State Fault Refusal :=
  run s (takeMessage l .clockConfigure (ifWellFormed l .clockConfigure (fun m => onConsole l (takeConfigure l m))))

/-! ### Run starts (R26, R30, R36) -/

/-- R26, R30, R36: the run record of a run that starts at a price. -/
def RunRecord.started (r : RunRecord) (price step : Nat) : RunRecord :=
  { r with run := next16 r.run, startPrice := some price, step := some step, position := 0, price := price, dwell := 0,
           restartPrice := none }

/-- R30, R73: the lot of a run start: the first makes it SELLING and fixes its ceiling. -/
def Lot.started (t : Lot) (price : Nat) : Lot :=
  match t.ceiling with
  | some _ => t
  | none => { t with ceiling := some price, state := .selling }

/-- R30, R36: the state a run start enters. -/
def startState (price least : Nat) : ClockState := if price = least then .floor else .running

/-- R30, R36: a run starts: the records, RUN STARTED, CLOCK STATE, and position 0 offered to the orders. That RUN STARTED and the CLOCK
STATE of the state entered stand before what the offer sends is the model's choice (log 13): R30 and R36 fix no order. -/
def startRun (c : ClockId) (price : Nat) (announce : OutBody → Part → Part) (differs : Bool) (p : Part) : Part :=
  let st := startState price ((p.clocks.get c).run.minPrice.getD 0)
  let p := p.updLot (p.saleId c) (fun t => t.started price)
  let p := p.updClock c (fun k =>
    { k with run := k.run.started price k.config.priceStep, restartTimer := none })
  let p := (startStride c p).updClock c ClockUnit.clearFired
  let p := announce (.runStarted c (p.clocks.get c).run.run (p.saleId c) price differs st) p
  offerPosition c (enterState c st p)

/-- R30: the start price of a START on a clock's lot. -/
def Part.startPrice (p : Part) (c : ClockId) (given : Option Nat) : Nat :=
  let t := p.saleLot c
  startPriceOf t.suggested t.minPrice t.ceiling (p.clocks.get c).run.restartPrice given

/-- R30: whether the start price differs from a price given; with none given it does not (log 23). -/
def startDiffers (price : Nat) (given : Option Nat) : Bool :=
  match given with
  | none => false
  | some g => decide (price ≠ g)

/-- R30: a run starts at START. -/
def startByConsole (l : LinkId) (m : Message) (c : ClockId) (p : Part) : Part :=
  let given := optOfZero (fieldAt m.body 0 4)
  let price := p.startPrice c given
  startRun c price (fun b q => q.reply l m b) (startDiffers price given) p

/-- R30, R31, R36, R174: START. R31 has the clock state checked first, R174 has a price above 9,999,999 MALFORMED, and neither names the
other: that such a START is refused MALFORMED in every clock state and hall view is the model's choice (log 52). -/
def takeStart (l : LinkId) (m : Message) (c : ClockId) (p : Part) : Part :=
  if Config.maxPrice < fieldAt m.body 0 4 then p.refuseMsg l m .malformed
  else
    match (p.clocks.get c).state with
    | .idle => p.refuseMsg l m .noLot
    | .ready =>
      if (p.clocks.get c).run.hallView = .opened then startByConsole l m c p else p.refuseMsg l m .hallClosed
    | .restart => startByConsole l m c p
    | .running => p.refuseMsg l m .busy
    | .floor => p.refuseMsg l m .busy
    | .window => p.refuseMsg l m .busy
    | .awarding => p.refuseMsg l m .busy
    | .held => p.refuseMsg l m .busy

/-- START. -/
def execStart (l : LinkId) (s : State) : Host.Outcome State Fault Refusal :=
  run s (takeMessage l .start (ifWellFormed l .start (fun m => onConsole l (takeStart l m))))

/-- R36: at the end of the restart delay a run starts at the restart price; RUN STARTED carries no TAG. -/
def restartStep (c : ClockId) (p : Part) : Part :=
  match (p.clocks.get c).restartTimer with
  | none => p
  | some t =>
    if (p.clocks.get c).state = .restart then
      let p := p.reach t
      startRun c (p.startPrice c none) (fun b q => q.toConsole c b) false p
    else p

/-- RESTART_DELAY_END. -/
def execRestartDelayEnd (c : ClockId) (s : State) : Host.Outcome State Fault Refusal := run s (restartStep c)

/-! ### Strides (R32 to R34) -/

/-- After a stride that leaves the clock descending: the stride timer, the stride event and the offer (R32, R33). -/
def strideGoesOn (c : ClockId) (p : Part) : Part :=
  let p := startStride c p
  offerPosition c (p.toDisplay c (.stride (p.report c)))

/-- R32: a stride ends in RUNNING. -/
def strideRunning (c : ClockId) (p : Part) : Part :=
  let r := (p.clocks.get c).run
  if r.position + 1 = Config.positionLimit then lotDone c .closedUnsold p
  else
    let price := r.priceOf (r.position + 1)
    let p := p.updRun c (fun r => { r with position := r.position + 1, price := price, dwell := 0 })
    strideGoesOn c (if r.minPrice = some price then enterState c .floor p else p)

/-- R33: a stride ends in FLOOR. -/
def strideFloor (c : ClockId) (p : Part) : Part :=
  let k := p.clocks.get c
  if k.run.position + 1 = Config.positionLimit ∨ k.config.floorDwell ≤ k.run.dwell + 1 then lotDone c .closedUnsold p
  else strideGoesOn c (p.updRun c (fun r => { r with position := r.position + 1, dwell := r.dwell + 1 }))

/-- R32, R33: the end of a stride. -/
def strideStep (c : ClockId) (p : Part) : Part :=
  match (p.clocks.get c).strideTimer with
  | none => p
  | some t =>
    match (p.clocks.get c).state with
    | .running => strideRunning c (p.reach t)
    | .floor => strideFloor c (p.reach t)
    | _ => p

/-- STRIDE_END. -/
def execStrideEnd (c : ClockId) (s : State) : Host.Outcome State Fault Refusal := run s (strideStep c)

/-! ### Hold and resume (R37, R38, R40) -/

/-- R37, R40: the clock is held where it stands, with a cause. -/
def holdNow (c : ClockId) (back : HeldFrom) (cause : HoldCause) (p : Part) : Part :=
  let p := p.updClock c (fun k => { k with strideTimer := none, restartTimer := none })
  enterState c .held (p.updRun c (fun r => { r with heldFrom := some back, holdCause := some cause }))

/-- R37, R40: a hold is made pending; one already pending and its cause are kept. -/
def holdLater (c : ClockId) (cause : HoldCause) (p : Part) : Part :=
  p.updRun c (fun r => if r.pendingHold then r else { r with pendingHold := true, holdCause := some cause })

/-- R37: HOLD CLOCK. That ACK stands before CLOCK STATE is the model's choice (log 13): R37 fixes no order. -/
def takeHold (l : LinkId) (m : Message) (c : ClockId) (p : Part) : Part :=
  match (p.clocks.get c).state with
  | .running => holdNow c .running .console (p.reply l m (.ack (.hold false)))
  | .floor => holdNow c .floor .console (p.reply l m (.ack (.hold false)))
  | .restart => holdNow c .restart .console (p.reply l m (.ack (.hold false)))
  | .window => holdLater c .console (p.reply l m (.ack (.hold true)))
  | .awarding => holdLater c .console (p.reply l m (.ack (.hold true)))
  | .held => p.reply l m (.ack (.hold false))
  | .idle => p.refuseMsg l m .notRunning
  | .ready => p.refuseMsg l m .notRunning

/-- HOLD_CLOCK. -/
def execHoldClock (l : LinkId) (s : State) : Host.Outcome State Fault Refusal :=
  run s (takeMessage l .holdClock (ifWellFormed l .holdClock (fun m => onConsole l (takeHold l m))))

/-- R38: a held clock enters its held-from state. -/
def resumeHeld (c : ClockId) (p : Part) : Part :=
  let back := (p.clocks.get c).run.heldFrom
  let p := p.updRun c (fun r => { r with heldFrom := none, holdCause := none })
  match back with
  | some .running => enterState c .running (startStride c p)
  | some .floor => enterState c .floor (startStride c p)
  | some .restart =>
    let p := enterRestart c p
    if (p.clocks.get c).run.hallView = .opened then p else enterReady c p
  | none => p

/-- R38: RESUME with a hold pending clears it; without one it is refused. -/
def resumePending (l : LinkId) (m : Message) (c : ClockId) (p : Part) : Part :=
  if (p.clocks.get c).run.pendingHold then
    (p.updRun c (fun r => { r with pendingHold := false, holdCause := none })).reply l m (.ack .plain)
  else p.refuseMsg l m .notHeld

/-- R38: RESUME. -/
def takeResume (l : LinkId) (m : Message) (c : ClockId) (p : Part) : Part :=
  match (p.clocks.get c).state with
  | .held => resumeHeld c (p.reply l m (.ack .plain))
  | .window => resumePending l m c p
  | .awarding => resumePending l m c p
  | .idle => p.refuseMsg l m .notHeld
  | .ready => p.refuseMsg l m .notHeld
  | .running => p.refuseMsg l m .notHeld
  | .floor => p.refuseMsg l m .notHeld
  | .restart => p.refuseMsg l m .notHeld

/-- RESUME. -/
def execResume (l : LinkId) (s : State) : Host.Outcome State Fault Refusal :=
  run s (takeMessage l .resume (ifWellFormed l .resume (fun m => onConsole l (takeResume l m))))

/-! ### Withdrawal by the console (R39, R62) -/

/-- R62: the window is abandoned: its timer is stopped and every candidate is refused WITHDRAWN. -/
def abandonWindow (c : ClockId) (p : Part) : Part :=
  let xs := (p.clocks.get c).candidates
  let p := p.updClock c (fun k => { k with windowTimer := none })
  (refuseAll c .withdrawn xs p).updClock c ClockUnit.endDecision

/-- R39: WITHDRAW LOT of the head lot. That ACK stands before CLOCK STATE and LOT CLOSED is the model's choice (log 13): R39 fixes no
order. -/
def withdrawHead (l : LinkId) (m : Message) (c : ClockId) (p : Part) : Part :=
  match (p.clocks.get c).state with
  | .awarding =>
    (p.reply l m (.ack (.withdrawal true))).updRun c (fun r => { r with pendingWithdrawal := true })
  | .window => lotDone c .withdrawn (abandonWindow c (p.reply l m (.ack (.withdrawal false))))
  | _ => lotDone c .withdrawn (p.reply l m (.ack (.withdrawal false)))

/-- R39, R174: WITHDRAW LOT. That lot id 0 is refused MALFORMED (R174) in every clock state, before NO_LOT and UNKNOWN_LOT (R39), is the
model's choice (log 52): no rule orders them. -/
def takeWithdraw (l : LinkId) (m : Message) (c : ClockId) (p : Part) : Part :=
  let lot := fieldAt m.body 0 4
  if lot = 0 then p.refuseMsg l m .malformed
  else if (p.clocks.get c).state = .idle then p.refuseMsg l m .noLot
  else if (p.clocks.get c).run.lot = some lot then withdrawHead l m c p
  else p.refuseMsg l m .unknownLot

/-- WITHDRAW_LOT. -/
def execWithdrawLot (l : LinkId) (s : State) : Host.Outcome State Fault Refusal :=
  run s (takeMessage l .withdrawLot (ifWellFormed l .withdrawLot (fun m => onConsole l (takeWithdraw l m))))

/-! ### The console link (R40, R41) -/

/-- R40: the CONSOLE link of a clock is lost. -/
def consoleLost (c : ClockId) (p : Part) : Part :=
  match (p.clocks.get c).state with
  | .running => holdNow c .running .consoleLost p
  | .floor => holdNow c .floor .consoleLost p
  | .restart => holdNow c .restart .consoleLost p
  | .window => holdLater c .consoleLost p
  | .awarding => holdLater c .consoleLost p
  | _ => p

/-! ### Hall notices (R42, R163) -/

/-- R163: the answer to a hall notice, with the activity as it stands and the notice it answers. -/
def answerNotice (c : ClockId) (h : HallState) (p : Part) : Part :=
  p.toAccount c (.activity (p.clocks.get c).state.active (some h))

/-- R42: the last state notified is the hall view. -/
def setHallView (c : ClockId) (h : HallState) (p : Part) : Part := p.updRun c (fun r => { r with hallView := h })

/-- R42: the notice of OPEN. -/
def noticeOpen (c : ClockId) (p : Part) : Part := answerNotice c .opened (setHallView c .opened p)

/-- R42: the notice of CLOSING; a clock in RESTART goes to READY. -/
def noticeClosing (c : ClockId) (p : Part) : Part :=
  let p := setHallView c .closing p
  answerNotice c .closing (if (p.clocks.get c).state = .restart then enterReady c p else p)

/-- R42, R95: the notice of CLOSED; every standing order ends. -/
def noticeClosed (c : ClockId) (p : Part) : Part := answerNotice c .closed (endForDay c (setHallView c .closed p))

/-- HALL_NOTICE_OPEN. -/
def execHallNoticeOpen (c : ClockId) (s : State) : Host.Outcome State Fault Refusal :=
  run s (takeFromAccount c (fun | .hall .opened => some (noticeOpen c) | _ => none))

/-- HALL_NOTICE_CLOSING. -/
def execHallNoticeClosing (c : ClockId) (s : State) : Host.Outcome State Fault Refusal :=
  run s (takeFromAccount c (fun | .hall .closing => some (noticeClosing c) | _ => none))

/-- HALL_NOTICE_CLOSED. -/
def execHallNoticeClosed (c : ClockId) (s : State) : Host.Outcome State Fault Refusal :=
  run s (takeFromAccount c (fun | .hall .closed => some (noticeClosed c) | _ => none))

end Sys2Proof.Machine
end

