-- ==== Sys2Proof/Machine/Links.lean ====
section
/-! DEFINITION. Links.lean: the Link Interfaces (spec 09): reset, link states, receiving, sending, announcing a role, the loss of a
role, and the statistics (R171). -/

namespace Sys2Proof.Machine

/-! ### Reset (R168) -/

/-- RESET: every block takes its after-reset values and the time base counts from 0, also when the pin was low. -/
def execReset (s : State) : Host.Outcome State Fault Refusal := .next { s with part := Part.reset, pinLow := false }

/-- RESET_PIN_HELD_LOW: every operation in flight ends; the part is held in its after-reset values and takes nothing (log 5). -/
def execResetPinHeldLow (s : State) : Host.Outcome State Fault Refusal :=
  .next { s with part := Part.reset, pinLow := true }

/-! ### Receiving (R150, R152) -/

/-- R150: in DOWN, line activity moves the link to SYNCING and starts both timers; in another state nothing changes (log 37). -/
def lineActive (l : LinkId) (p : Part) : Part :=
  p.updLink l (fun k =>
    if k.state = .down then
      { k with state := .syncing, lossTimer := some (p.now + Config.lossPeriod),
               keepTimer := some (p.now + Config.keepPeriod) }
    else k)

/-- LINE_ACTIVITY. -/
def execLineActivity (l : LinkId) (s : State) : Host.Outcome State Fault Refusal := run s (lineActive l)

/-- R150, R152: a good frame restarts the loss timer and is counted; the first moves SYNCING to WAITING. -/
def Link.goodFrame (k : Link) (now : Nat) : Link :=
  Link.countIn { k with lossTimer := some (now + Config.lossPeriod),
                        state := if k.state = .syncing then .waiting else k.state }

/-- R152: a good frame holding a message: queued with 15 or fewer waiting, else dropped and counted. -/
def Link.takeFrame (k : Link) (raw : List Byte) : Link :=
  if k.inbound.length < Config.inboundCap then Link.flowOnAppend { k with inbound := k.inbound ++ [raw] }
  else (Link.countInboundDrop k).flowOnDrop

/-- R160: WAIT sets peer wait. -/
def waitFrom (l : LinkId) (p : Part) : Part := p.updLink l (fun k => { k.goodFrame p.now with peerWait := true })

/-- R160, R129: GO clears peer wait, and on the SETTLEMENT link the start check is made. -/
def goFrom (l : LinkId) (p : Part) : Part :=
  let p := p.updLink l (fun k => { k.goodFrame p.now with peerWait := false })
  if p.serves l .settlement then startCheck p else p

/-- R152: a KEEP has no effect beyond the timer. -/
def keepFrom (l : LinkId) (p : Part) : Part := p.updLink l (fun k => k.goodFrame p.now)

/-- R152: a good message frame. -/
def messageFrom (l : LinkId) (raw : List Byte) (p : Part) : Part :=
  p.updLink l (fun k => (k.goodFrame p.now).takeFrame raw)

/-- Whether a link receives frames: it does not in DOWN (the table of link states, log 18). -/
def Part.receives (p : Part) (l : LinkId) : Bool := decide ((p.links.get l).state ≠ .down)

/-- R152, R172: a received frame is checked and acted on. -/
def receive (l : LinkId) (bytes : List Byte) (p : Part) : Part :=
  if p.receives l then
    match readFrame bytes with
    | .bad => p.updLink l Link.countBad
    | .keep => keepFrom l p
    | .wait => waitFrom l p
    | .go => goFrom l p
    | .message raw => messageFrom l raw p
  else p

/-- FRAME_RECEIVED. -/
def execFrameReceived (l : LinkId) (bytes : List Byte) (s : State) : Host.Outcome State Fault Refusal :=
  run s (receive l bytes)

/-- KEEP_MARKER. -/
def execKeepMarker (l : LinkId) (s : State) : Host.Outcome State Fault Refusal :=
  run s (fun p => if p.receives l then keepFrom l p else p)

/-- WAIT_MARKER. -/
def execWaitMarker (l : LinkId) (s : State) : Host.Outcome State Fault Refusal :=
  run s (fun p => if p.receives l then waitFrom l p else p)

/-- GO_MARKER. -/
def execGoMarker (l : LinkId) (s : State) : Host.Outcome State Fault Refusal :=
  run s (fun p => if p.receives l then goFrom l p else p)

/-! ### Loss (R150, R151) -/

/-- R12: the LOGISTICS link is lost. -/
def logisticsLost (p : Part) : Part :=
  p.updSupply (fun s =>
    { (match s.filling with | none => s | some (id, _) => s.freeFilling id) with discard := none })

/-- R112: one desk of a lost DESK GROUP link's region map. -/
def unbindLost (l : LinkId) (m : List Region) (p : Part) (e : Nat × Binding) : Part :=
  match hallToLocal m e.1 with
  | none => p
  | some d => sendEndRequests e.2.buyer (some ⟨l, d⟩) (unbindDesk e.1 e.2.buyer p)

/-- R112, R145: a DESK GROUP link is lost: its desks are unbound, its map is removed, its sets are discarded. -/
def deskGroupLost (l : LinkId) (p : Part) : Part :=
  let p :=
    match p.account.groups.get l with
    | none => p
    | some g => p.account.desks.foldl (unbindLost l g.map) p
  let p := p.updAccount (fun a => { a with groups := a.groups.upd l (fun _ => none) })
  p.updDisplay (fun d => { d with sets := d.sets.upd l (fun _ => none) })

/-- R144: a DISPLAY link is lost. -/
def displayLost (l : LinkId) (p : Part) : Part :=
  p.updDisplay (fun d => { d with clockSets := d.clockSets.upd l (fun _ => none) })

/-- R169: the SUPERVISION link is lost. -/
def supervisionLost (p : Part) : Part := p.updDisplay (fun d => { d with mirror := none })

/-- R151: what the units do at the loss of a role. -/
def roleLost (l : LinkId) (r : Role) (p : Part) : Part :=
  match r with
  | .logistics => logisticsLost p
  | .console c => consoleLost c p
  | .deskGroup => deskGroupLost l p
  | .settlement => settlementLost p
  | .display => displayLost l p
  | .supervision => supervisionLost p

/-- R150: a link that goes DOWN keeps its statistics alone (and the model's record of the last frame sent). -/
def Link.lost (k : Link) : Link := { Link.reset with stats := k.stats, lastSent := k.lastSent }

/-- R150, R151: a link goes DOWN. -/
def loseLink (l : LinkId) (p : Part) : Part :=
  let role := (p.links.get l).role
  let p := p.updLink l Link.lost
  match role with
  | none => p
  | some r => roleLost l r p

/-- R150: the loss timer of a link expires. -/
def lossStep (l : LinkId) (p : Part) : Part :=
  match (p.links.get l).lossTimer with
  | none => p
  | some t => loseLink l (p.reach t)

/-- LOSS_TIMER_EXPIRY. -/
def execLossTimerExpiry (l : LinkId) (s : State) : Host.Outcome State Fault Refusal := run s (lossStep l)

/-- R161: the keep timer of a link expires, and KEEP is made pending. -/
def keepStep (l : LinkId) (p : Part) : Part :=
  match (p.links.get l).keepTimer with
  | none => p
  | some t => (p.reach t).updLink l (fun k => { k with keepPending := true, keepTimer := none })

/-- KEEP_TIMER_EXPIRY. -/
def execKeepTimerExpiry (l : LinkId) (s : State) : Host.Outcome State Fault Refusal := run s (keepStep l)

/-! ### Sending (R159, R160) -/

/-- R160: the weight as a bound of the service count; urgent-first has none. -/
def Weight.bound : Weight → Option Nat
  | .w4 => some 4
  | .w8 => some 8
  | .w16 => some 16
  | .urgentFirst => none

/-- R160: whether the urgent head goes before the bulk head, both queues being non-empty. -/
def Link.urgentFirst (k : Link) : Bool :=
  match k.weight.bound with
  | none => true
  | some w => decide (k.service < w)

/-- R160: the service count after an urgent message; under urgent-first it is not used. -/
def Link.served (k : Link) : Nat :=
  match k.weight.bound with
  | none => k.service
  | some w => min (k.service + 1) w

/-- R159, R160: every frame is counted and restarts the keep timer; a message carries a gap mark that is pending. -/
def Link.sent (k : Link) (now : Nat) (f : SentFrame) : Link :=
  Link.countOut { k with keepTimer := some (now + Config.keepPeriod), lastSent := some f }

/-- R159: a message goes on the line. -/
def Link.sendMessage (k : Link) (now : Nat) (m : OutMsg) : Link :=
  if k.gapPending then
    (Link.countGap { k with gapPending := false }).sent now (.message true m)
  else k.sent now (.message false m)

/-- What the transmitter has done: nothing, a frame of the link's own or an urgent message, or a bulk message. -/
inductive Sending where
  | nothing
  | other (k : Link)
  | bulk (k : Link)
  deriving DecidableEq, Repr

/-- R160: the urgent head is sent. -/
def Link.sendUrgent (k : Link) (now : Nat) (m : OutMsg) (rest : List OutMsg) : Sending :=
  .other (({ k with urgent := rest, service := k.served } : Link).sendMessage now m)

/-- R160: the bulk head is sent. -/
def Link.sendBulk (k : Link) (now : Nat) (m : OutMsg) (rest : List OutMsg) : Sending :=
  .bulk (({ k with bulk := rest, service := if k.weight.bound.isSome then 0 else k.service } : Link).sendMessage now m)

/-- R160: the choice between the outbound queues. -/
def Link.sendQueued (k : Link) (now : Nat) : Sending :=
  match k.urgent, k.bulk with
  | [], [] => .nothing
  | m :: rest, [] => k.sendUrgent now m rest
  | [], m :: rest => k.sendBulk now m rest
  | m :: us, b :: bs => if k.urgentFirst then k.sendUrgent now m us else k.sendBulk now b bs

/-- R160: the next frame: a pending flow marker, then a pending KEEP, then a message when the peer has not stopped them. -/
def Link.sendNext (k : Link) (now : Nat) : Sending :=
  if k.state = .down then .nothing
  else
    match k.flowPending with
    | some m => .other (({ k with flowPending := none } : Link).sent now (.flow m))
    | none =>
      if k.keepPending then .other (({ k with keepPending := false } : Link).sent now .keep)
      else if k.peerWait = false ∧ k.state.serving = true then k.sendQueued now
      else .nothing

/-- R130, R160: a bulk message sent on the SETTLEMENT link is reported, and the next invoice messages are placed. -/
def bulkSent (l : LinkId) (p : Part) : Part := if p.serves l .settlement then pump Config.bulkCap p else p

/-- R160: the free transmitter sends a frame. -/
def transmit (l : LinkId) (p : Part) : Part :=
  match (p.links.get l).sendNext p.now with
  | .nothing => p
  | .other k => p.updLink l (fun _ => k)
  | .bulk k => bulkSent l (p.updLink l (fun _ => k))

/-- FRAME_SENT. -/
def execFrameSent (l : LinkId) (s : State) : Host.Outcome State Fault Refusal := run s (transmit l)

/-! ### Unknown kinds (R154, R173) -/

/-- R154: a message of no known kind is refused MALFORMED with its kind, and with its TAG unless it is over 160 bytes. -/
def refuseUnknown (l : LinkId) (raw : List Byte) (p : Part) : Part :=
  let m := parse raw
  p.postLink l ⟨if Config.maxMessage < raw.length then none else m.tag, .refused (some m.code) .malformed none⟩

/-- R154, R173: the head of the inbound queue leaves it when its kind is not one of the catalogue. -/
def unknownStep (l : LinkId) (p : Part) : Part :=
  if (p.links.get l).state.serving then
    match (p.links.get l).inbound with
    | [] => p
    | raw :: _ =>
      if kindOf (parse raw).code = none then refuseUnknown l raw (p.updLink l Link.leave) else p
  else p

/-- UNKNOWN_KIND. -/
def execUnknownKind (l : LinkId) (s : State) : Host.Outcome State Fault Refusal := run s (unknownStep l)

/-! ### Announcing a role (R157, R158) -/

/-- A claim that an ANNOUNCE makes. -/
inductive Claim where
  | logistics | console (c : ClockId) | settlement | display (set : ClockSet) | supervision (set : ClockSet)
  | deskGroup (map : List Region) (clock : Nat) (aging : Bool) (age : Nat)
  deriving DecidableEq, Repr

/-- R157, check 1: the claim of an ANNOUNCE body, none when a value of it is out of range. -/
def readClaim (b : List Byte) : Option Claim :=
  match fieldAt b 0 1 with
  | 1 => some .logistics
  | 2 => (clockOf (fieldAt b 2 1)).map .console
  | 3 => some (.deskGroup (readRegions b) (fieldAt b 2 1) (yesOf (fieldAt b 3 1)) (fieldAt b 4 1))
  | 4 => some .settlement
  | 5 =>
    let set := clockSetOf (fieldAt b 2 1)
    if set = PerClock.const false then none else some (.display set)
  | 6 => some (.supervision (clockSetOf (fieldAt b 2 1)))
  | _ => none

/-- The role a claim claims. -/
def Claim.role : Claim → Role
  | .logistics => .logistics
  | .console c => .console c
  | .settlement => .settlement
  | .display _ => .display
  | .supervision _ => .supervision
  | .deskGroup _ _ _ _ => .deskGroup

/-- R157, check 2: the roles of which there is at most one. -/
def Role.limited : Role → Bool
  | .deskGroup | .display => false
  | _ => true

/-- R157, check 2: whether another link holds a claimed limited role. -/
def Part.roleTaken (p : Part) (l : LinkId) (r : Role) : Bool :=
  r.limited && linkIds.any (fun k => decide (k ≠ l) && p.serves k r)

/-- R104, check 3: whether a map shares an index with that of another UP DESK GROUP link. -/
def Part.overlaps (p : Part) (l : LinkId) (m : List Region) : Bool :=
  linkIds.any (fun k =>
    decide (k ≠ l) && match p.account.groups.get k with | none => false | some g => mapsMeet m g.map)

/-- R157, checks 2 and 3: the cause of the first that fails. -/
def Part.claimProblem (p : Part) (l : LinkId) (k : Claim) : Option Cause :=
  if p.roleTaken l k.role then some .roleTaken
  else
    match k with
    | .deskGroup m clock _ _ =>
      if !mapOk m || (clockOf clock).isNone || selfOverlap m then some .malformed
      else if p.overlaps l m then some .overlap
      else none
    | _ => none

/-- R104: the desk age in force: 30 minutes when absent, else clamped to 1 to 240. -/
def deskAge (given : Nat) : Nat := if given = 0 then Config.defaultDeskAge else clampTo 1 240 given

/-- R158: the desk age that ANNOUNCE ACCEPTED carries for a DESK GROUP. -/
def Claim.age : Claim → Option Nat
  | .deskGroup _ _ _ age => some (deskAge age)
  | _ => none

/-- R158: the link goes UP in its role, with its weight, and ANNOUNCE ACCEPTED is its first message. -/
def enterRole (l : LinkId) (m : Message) (k : Claim) (w : Weight) (p : Part) : Part :=
  let p := p.updLink l (fun x => { x with state := .up, role := some k.role, weight := w, service := 0 })
  p.reply l m (.announceAccepted l k.role w k.age)

/-- R21: DEPART ORDER is issued for the trolley in a clock's slot when it is DEPARTING. -/
def reissueDepart (p : Part) (c : ClockId) : Part :=
  match p.supply.slots.get c with
  | none => p
  | some id =>
    match p.trolley id with
    | none => p
    | some t => if t.state = .departing then issueDepart id p else p

/-- R41, R118: CLOCK STATE, followed by EXCEPTION STORE_LOW when the flag is set. -/
def consoleAdmitted (c : ClockId) (p : Part) : Part :=
  let p := p.toConsole c (.clockState (p.clockStateBody c))
  if p.account.storeLow then warnConsole p c else p

/-- R104, R145: the map and settings are installed, and the four sets are created clear. -/
def deskGroupAdmitted (l : LinkId) (g : DeskGroup) (p : Part) : Part :=
  let p := p.updAccount (fun a => { a with groups := a.groups.upd l (fun _ => some g) })
  p.updDisplay (fun d => { d with sets := d.sets.upd l (fun _ => some (PerClock.const Accumulator.zero)) })

/-- R144: the clock set is recorded and the last composed frames of its clocks are offered, in clock order. -/
def displayAdmitted (l : LinkId) (set : ClockSet) (p : Part) : Part :=
  let p := p.updDisplay (fun d => { d with clockSets := d.clockSets.upd l (fun _ => some set) })
  clockIds.foldl (fun p c => offerFrame (p.displayClock c).frame p l) p

/-- R158: what the units do at the admission of a claim. -/
def roleAdmitted (l : LinkId) (k : Claim) (p : Part) : Part :=
  match k with
  | .logistics => clockIds.foldl reissueDepart p
  | .console c => consoleAdmitted c p
  | .settlement => startCheck p
  | .display set => displayAdmitted l set p
  | .supervision set => p.updDisplay (fun d => { d with mirror := some set })
  | .deskGroup m clock aging age =>
    deskGroupAdmitted l { map := m, defaultClock := (clockOf clock).getD .c1, aging := aging, age := deskAge age } p

/-- R157: ANNOUNCE REFUSED. -/
def refuseAnnounce (l : LinkId) (m : Message) (cause : Cause) (p : Part) : Part :=
  p.postLink l ⟨m.tag, .announceRefused cause⟩

/-- R157, R158: an ANNOUNCE whose format is right. -/
def judgeClaim (l : LinkId) (m : Message) (p : Part) : Part :=
  match readClaim m.body, weightOf (fieldAt m.body 1 1) with
  | some k, some w =>
    match p.claimProblem l k with
    | some cause => refuseAnnounce l m cause p
    | none => roleAdmitted l k (enterRole l m k w p)
  | _, _ => refuseAnnounce l m .malformed p

/-- R154, R157: an ANNOUNCE taken in WAITING; one that is malformed by its format is answered REFUSED (log 14). -/
def takeAnnounce (l : LinkId) (m : Message) (p : Part) : Part :=
  if m.verdict .announce then judgeClaim l m p else p.postLink l ⟨m.tag, .refused none .malformed none⟩

/-- ANNOUNCE. -/
def execAnnounce (l : LinkId) (s : State) : Host.Outcome State Fault Refusal :=
  run s (takeMessage l .announce (takeAnnounce l))

/-! ### Statistics (R171) -/

/-- R171: the counters of a link are read, and cleared when asked; STATISTICS goes on the SUPERVISION link's bulk queue. -/
def readStatistics (l : LinkId) (m : Message) (n : LinkId) (clear : Bool) (p : Part) : Part :=
  let k := p.links.get n
  let p := if clear then p.updLink n (fun x => { x with stats := Statistics.zero }) else p
  p.postBulk l ⟨m.tag, .statistics n k.state k.role k.stats clear⟩

/-- R171, R174: STATISTICS REQUEST. -/
def takeStatistics (l : LinkId) (m : Message) (p : Part) : Part :=
  match linkOf (fieldAt m.body 0 1) with
  | none => p.refuseMsg l m .malformed
  | some n => readStatistics l m n (yesOf (fieldAt m.body 1 1)) p

/-- STATISTICS_REQUEST. -/
def execStatisticsRequest (l : LinkId) (s : State) : Host.Outcome State Fault Refusal :=
  run s (takeMessage l .statisticsRequest (ifWellFormed l .statisticsRequest (takeStatistics l)))

end Sys2Proof.Machine
end

