-- ==== Sys2Proof/Machine/Dispatch.lean ====
section
/-! DEFINITION. Dispatch.lean: the meaning of each command, one arm per command. -/

namespace Sys2Proof.Machine

def exec (i : Instr) (s : State) : Host.Outcome State Fault Refusal :=
  match i with
  | .reset => Sys2Proof.Machine.execReset s
  | .resetPinHeldLow => Sys2Proof.Machine.execResetPinHeldLow s
  | .lineActivity l => Sys2Proof.Machine.execLineActivity l s
  | .frameReceived l bytes => Sys2Proof.Machine.execFrameReceived l bytes s
  | .keepMarker l => Sys2Proof.Machine.execKeepMarker l s
  | .waitMarker l => Sys2Proof.Machine.execWaitMarker l s
  | .goMarker l => Sys2Proof.Machine.execGoMarker l s
  | .lossTimerExpiry l => Sys2Proof.Machine.execLossTimerExpiry l s
  | .keepTimerExpiry l => Sys2Proof.Machine.execKeepTimerExpiry l s
  | .frameSent l => Sys2Proof.Machine.execFrameSent l s
  | .unknownKind l => Sys2Proof.Machine.execUnknownKind l s
  | .announce l => Sys2Proof.Machine.execAnnounce l s
  | .trainHeader l => Sys2Proof.Machine.execTrainHeader l s
  | .trolleyEntry l => Sys2Proof.Machine.execTrolleyEntry l s
  | .trolleyArrived l => Sys2Proof.Machine.execTrolleyArrived l s
  | .lotWithdraw l => Sys2Proof.Machine.execLotWithdraw l s
  | .trainWithdraw l => Sys2Proof.Machine.execTrainWithdraw l s
  | .trolleyDeparted l => Sys2Proof.Machine.execTrolleyDeparted l s
  | .slotQuery l => Sys2Proof.Machine.execSlotQuery l s
  | .lotDoneReport c => Sys2Proof.Machine.execLotDoneReport c s
  | .headLotPresented c => Sys2Proof.Machine.execHeadLotPresented c s
  | .noPresentedHead c => Sys2Proof.Machine.execNoPresentedHead c s
  | .lotWithdrawn c => Sys2Proof.Machine.execLotWithdrawn c s
  | .clockConfigure l => Sys2Proof.Machine.execClockConfigure l s
  | .start l => Sys2Proof.Machine.execStart l s
  | .holdClock l => Sys2Proof.Machine.execHoldClock l s
  | .resume l => Sys2Proof.Machine.execResume l s
  | .withdrawLot l => Sys2Proof.Machine.execWithdrawLot l s
  | .strideEnd c => Sys2Proof.Machine.execStrideEnd c s
  | .windowExpiry c => Sys2Proof.Machine.execWindowExpiry c s
  | .restartDelayEnd c => Sys2Proof.Machine.execRestartDelayEnd c s
  | .bid l => Sys2Proof.Machine.execBid l s
  | .admittedBid c => Sys2Proof.Machine.execAdmittedBid c s
  | .placement c => Sys2Proof.Machine.execPlacement c s
  | .cancelOrder l => Sys2Proof.Machine.execCancelOrder l s
  | .cancelRequest c => Sys2Proof.Machine.execCancelRequest c s
  | .buyerNotice c => Sys2Proof.Machine.execBuyerNotice c s
  | .endRequest c => Sys2Proof.Machine.execEndRequest c s
  | .hallNoticeOpen c => Sys2Proof.Machine.execHallNoticeOpen c s
  | .hallNoticeClosing c => Sys2Proof.Machine.execHallNoticeClosing c s
  | .hallNoticeClosed c => Sys2Proof.Machine.execHallNoticeClosed c s
  | .reservation c => Sys2Proof.Machine.execReservation c s
  | .grant c => Sys2Proof.Machine.execGrant c s
  | .refuse c => Sys2Proof.Machine.execRefuse c s
  | .deliverOutcome c => Sys2Proof.Machine.execDeliverOutcome c s
  | .orderEnded c => Sys2Proof.Machine.execOrderEnded c s
  | .activityReport c => Sys2Proof.Machine.execActivityReport c s
  | .login l => Sys2Proof.Machine.execLogin l s
  | .logout l => Sys2Proof.Machine.execLogout l s
  | .present l => Sys2Proof.Machine.execPresent l s
  | .ageExpiry desk => Sys2Proof.Machine.execAgeExpiry desk s
  | .snapshotRequest l => Sys2Proof.Machine.execSnapshotRequest l s
  | .buyerSet l => Sys2Proof.Machine.execBuyerSet l s
  | .buyerRemove l => Sys2Proof.Machine.execBuyerRemove l s
  | .creditLimit l => Sys2Proof.Machine.execCreditLimit l s
  | .block l => Sys2Proof.Machine.execBlock l s
  | .unblock l => Sys2Proof.Machine.execUnblock l s
  | .tariffLoad l => Sys2Proof.Machine.execTariffLoad l s
  | .closeInvoice l => Sys2Proof.Machine.execCloseInvoice l s
  | .settled l => Sys2Proof.Machine.execSettled l s
  | .openDay l => Sys2Proof.Machine.execOpenDay l s
  | .closeDay l => Sys2Proof.Machine.execCloseDay l s
  | .statisticsRequest l => Sys2Proof.Machine.execStatisticsRequest l s
  | .stateEvent c => Sys2Proof.Machine.execStateEvent c s
  | .strideEvent c => Sys2Proof.Machine.execStrideEvent c s
  | .awardEvent c => Sys2Proof.Machine.execAwardEvent c s
  | .divisorEvent c => Sys2Proof.Machine.execDivisorEvent c s
  | .supplyUnitEvent c => Sys2Proof.Machine.execSupplyUnitEvent c s
  | .frameTimerExpiry c => Sys2Proof.Machine.execFrameTimerExpiry c s
  | .bidCopy src => Sys2Proof.Machine.execBidCopy src s
  | .outcomeCopy src => Sys2Proof.Machine.execOutcomeCopy src s

end Sys2Proof.Machine
end

