-- ==== Sys2Proof/Machine/Step.lean ====
section
/-! DEFINITION. Step.lean: one step of the machine: the command at the front of the queue, or one millisecond of idling. -/

namespace Sys2Proof.Machine

/-- A millisecond in which no command is taken: the time base counts on, unless the reset pin is low (R168, log 4). -/
def idle (s : State) : State := if s.pinLow then s else { s with part := { s.part with now := s.part.now + 1 } }

/-- One step: the command at the front of the queue is taken and run on the machine with the rest; with no command waiting the
block idles for a millisecond. -/
def step (s : State) : Host.Outcome State Fault Refusal :=
  match s.pending with
  | [] => .next (idle s)
  | i :: rest => exec i { s with pending := rest }

/-- The table gives no command word, so no word spells a command and the state is unchanged (log 6). -/
def State.withFetchWord (s : State) (nbits w : Nat) : State :=
  match Sys2Proof.decodeTableWord nbits w with
  | none => s
  | some i => { s with pending := i :: s.pending }

end Sys2Proof.Machine
end

