-- ==== Sys2Proof/Safety.lean ====
section
/-! DEFINITION. Safety.lean: the words the statements are written in: when a message is taken, what answering it does to the links, and
the invariants of the machine. -/

namespace Sys2Proof.Machine

/-! ### When a message is taken -/

/-- The command that takes a message of a kind from a link. -/
def Kind.command (k : Kind) (l : LinkId) : Instr :=
  match k with
  | .announce => .announce l
  | .trainHeader => .trainHeader l
  | .trolleyEntry => .trolleyEntry l
  | .trolleyArrived => .trolleyArrived l
  | .lotWithdraw => .lotWithdraw l
  | .trainWithdraw => .trainWithdraw l
  | .trolleyDeparted => .trolleyDeparted l
  | .slotQuery => .slotQuery l
  | .clockConfigure => .clockConfigure l
  | .start => .start l
  | .holdClock => .holdClock l
  | .resume => .resume l
  | .withdrawLot => .withdrawLot l
  | .bid => .bid l
  | .cancelOrder => .cancelOrder l
  | .login => .login l
  | .logout => .logout l
  | .present => .present l
  | .snapshotRequest => .snapshotRequest l
  | .buyerSet => .buyerSet l
  | .buyerRemove => .buyerRemove l
  | .creditLimit => .creditLimit l
  | .block => .block l
  | .unblock => .unblock l
  | .tariffLoad => .tariffLoad l
  | .closeInvoice => .closeInvoice l
  | .settled => .settled l
  | .openDay => .openDay l
  | .closeDay => .closeDay l
  | .statisticsRequest => .statisticsRequest l

/-- A message of a kind waits at the head of a link that serves (R154), the reset pin being high. -/
def State.Waits (s : State) (l : LinkId) (k : Kind) (raw : List Byte) : Prop :=
  s.pinLow = false ∧ (s.part.links.get l).state.serving = true ∧ (s.part.links.get l).inbound.head? = some raw ∧
  kindOf (parse raw).code = some k

/-- The same on a link UP in a role that permits the kind, the message being 160 bytes or fewer and well formed by its format
(R154 to R156). -/
def State.Takes (s : State) (l : LinkId) (r : Role) (k : Kind) (raw : List Byte) : Prop :=
  s.pinLow = false ∧ (s.part.links.get l).state = .up ∧ (s.part.links.get l).role = some r ∧
  (s.part.links.get l).inbound.head? = some raw ∧ raw.length ≤ Config.maxMessage ∧
  kindOf (parse raw).code = some k ∧ (parse raw).verdict k = true ∧ permitted r k = true

/-- The state with the part as a command leaves it: the queue of commands and the reset pin are as they were. -/
def State.after (s : State) (p : Part) : State := { s with part := p }

/-- The links once the head message of one has left its queue and a message has been placed on its urgent queue. -/
def Part.answeredBy (p : Part) (l : LinkId) (m : OutMsg) : PerLink Link := p.links.upd l (fun k => k.leave.putUrgent m)

/-- The same with an answer that echoes the TAG of the message that has left. -/
def Part.answered (p : Part) (l : LinkId) (raw : List Byte) (b : OutBody) : PerLink Link :=
  p.answeredBy l ⟨(parse raw).tag, b⟩

/-- The state after a message is refused with a cause by the unit that owns it: REFUSED goes out, nothing else changes. -/
def State.refusing (s : State) (l : LinkId) (raw : List Byte) (cause : Cause) : State :=
  s.after { s.part with links := s.part.answered l raw (.refused none cause none) }

/-- The links once the head message of one has left its queue. -/
def Part.unqueued (p : Part) (l : LinkId) : PerLink Link := p.links.upd l Link.leave

/-! ### Links (R150 to R162) -/

/-- R162: no counter is past its top. -/
def Statistics.Ok (s : Statistics) : Prop :=
  s.framesIn ≤ Config.maxCount32 ∧ s.framesOut ≤ Config.maxCount32 ∧ s.badFrames ≤ Config.maxCount32 ∧
  s.inboundDrops ≤ Config.maxCount32 ∧ s.urgentDrops ≤ Config.maxCount32 ∧ s.bulkDrops ≤ Config.maxCount32 ∧
  s.gapMarks ≤ Config.maxCount32

/-- R143, R150, R151, R152, R159, R162: a link's queues hold their capacities, it has a role exactly when it is UP, in DOWN
its queues are empty and its timers are stopped, and its bulk queue holds one CLOCK FRAME of each clock at most. -/
def Link.Ok (k : Link) : Prop :=
  k.inbound.length ≤ Config.inboundCap ∧ k.urgent.length ≤ Config.urgentCap ∧ k.bulk.length ≤ Config.bulkCap ∧
  (k.role.isSome = true ↔ k.state = .up) ∧
  (k.state = .down → k.inbound = [] ∧ k.urgent = [] ∧ k.bulk = [] ∧ k.lossTimer = none ∧ k.keepTimer = none) ∧
  (∀ c, (k.bulk.filter (fun m => m.isFrameOf c)).length ≤ 1) ∧ k.stats.Ok

/-- Every link is as it should be. -/
def Part.LinksOk (p : Part) : Prop := ∀ l, (p.links.get l).Ok

/-- R104, R144, R145, R157: a limited role is held by one link at most, and the state that units keep for a role is there
exactly while a link is UP in it. -/
def Part.RolesOk (p : Part) : Prop :=
  (∀ r l k, r.limited = true → p.serves l r = true → p.serves k r = true → l = k) ∧
  (∀ l, (p.account.groups.get l).isSome = p.serves l .deskGroup) ∧
  (∀ l, (p.display.sets.get l).isSome = p.serves l .deskGroup) ∧
  (∀ l, (p.display.clockSets.get l).isSome = p.serves l .display) ∧
  (p.display.mirror.isSome = (p.linkOf .supervision).isSome)

/-! ### Clock Units (R25, R26, R49, R84 and the table of clock states) -/

/-- R25, R26: what the run record holds in each clock state. In READY the current price is 0, unless the part keeps that of the decided run
there, as R71 has it (log 11). -/
def ClockUnit.RunOk (k : ClockUnit) : Prop :=
  (k.run.lot.isSome = true ↔ k.state ≠ .idle) ∧ (k.run.minPrice.isSome = true ↔ k.state ≠ .idle) ∧
  (k.state = .idle ∨ k.state = .ready → k.run.position = 0 ∧ k.run.dwell = 0 ∧
    (k.run.price = 0 ∨ (k.state = .ready ∧ Config.readyKeepsPrice = true))) ∧
  k.run.run ≤ Config.maxCount16 ∧
  (k.run.heldFrom.isSome = true ↔ k.state = .held) ∧
  (k.run.pendingHold = true → k.state = .window ∨ k.state = .awarding) ∧
  (k.run.pendingWithdrawal = true → k.state = .awarding) ∧
  (k.run.holdCause.isSome = true ↔ k.state = .held ∨ k.run.pendingHold = true)

/-- The table of clock states: which timer runs in each; R57: a reservation is in flight exactly in AWARDING; R53: a window of 0 ms
has expired in the handling that opened it. -/
def ClockUnit.TimersOk (k : ClockUnit) : Prop :=
  (k.strideTimer.isSome = true ↔ k.state = .running ∨ k.state = .floor) ∧
  (k.windowTimer.isSome = true ↔ k.state = .window) ∧
  (k.restartTimer.isSome = true ↔ k.state = .restart) ∧
  (k.inFlight.isSome = true ↔ k.state = .awarding) ∧ (k.state = .window → k.config.stopWindow ≠ 0)

/-- R49: the candidate list is empty outside WINDOW and AWARDING, holds 8 candidates at most and one of a buyer at most, and stands in
order of position and then of arrival; R57: in AWARDING a candidate is being tried. -/
def ClockUnit.CandidatesOk (k : ClockUnit) : Prop :=
  k.candidates.length ≤ Config.maxCandidates ∧ (k.state ≠ .window → k.state ≠ .awarding → k.candidates = []) ∧
  (k.state = .awarding → k.tried < k.candidates.length) ∧ (k.candidates.map Candidate.buyer).Nodup ∧
  k.candidates.Pairwise (fun x y => x.position < y.position ∨ (x.position = y.position ∧ x.arrival < y.arrival)) ∧
  (∀ x ∈ k.candidates, x.arrival ≤ k.arrivals)

/-- R84: the order table holds 16 orders at most and one of a buyer at most; order numbers differ and lie in 1 to 65,535. -/
def ClockUnit.OrdersOk (k : ClockUnit) : Prop :=
  k.orders.length ≤ Config.maxOrders ∧ (k.orders.map Order.buyer).Nodup ∧ (k.orders.map Order.number).Nodup ∧
  (∀ o ∈ k.orders, 1 ≤ o.number ∧ o.number ≤ Config.maxCount16) ∧ 1 ≤ k.nextOrder ∧ k.nextOrder ≤ Config.maxCount16

/-- A Clock Unit is as it should be. -/
def ClockUnit.Ok (k : ClockUnit) : Prop := k.RunOk ∧ k.TimersOk ∧ k.CandidatesOk ∧ k.OrdersOk

/-- Every Clock Unit is as it should be. -/
def Part.ClocksOk (p : Part) : Prop := ∀ c, (p.clocks.get c).Ok

/-! ### Tables (R1 to R3, R97, R119, R121) -/

/-- The tables hold their capacities, in the one form in which equal tables are equal data, and the places of the line store are
numbered from 1 to its capacity. -/
def Part.TablesOk (p : Part) : Prop :=
  (Table.rising p.supply.trains = true ∧ p.supply.trains.length ≤ Config.maxTrains) ∧
  (Table.rising p.supply.trolleys = true ∧ p.supply.trolleys.length ≤ Config.maxTrolleys) ∧
  (Table.rising p.supply.lots = true ∧ p.supply.lots.length ≤ Config.maxLots) ∧
  (Table.rising p.account.buyers = true ∧ p.account.buyers.length ≤ Config.maxBuyers) ∧
  (Table.rising p.account.lines = true ∧ p.account.lines.length ≤ Config.maxLines) ∧
  (∀ i x, p.account.lines.find i = some x → 1 ≤ i ∧ i ≤ Config.maxLines) ∧
  Table.rising p.account.desks = true ∧
  p.account.invoices.length ≤ Config.maxInvoices

/-- R106: the bound buyer of a desk and the bound desk of a buyer's record agree, and a bound desk is one of the 512. -/
def Part.BindingsOk (p : Part) : Prop :=
  (∀ i b, p.account.desks.find i = some b → i < Config.deskCount ∧ ∃ r, p.buyer b.buyer = some r ∧ r.desk = some i) ∧
  (∀ u r i, p.buyer u = some r → r.desk = some i → ∃ b, p.account.desks.find i = some b ∧ b.buyer = u)

/-! ### The Display Unit (R140 to R142, R145) -/

/-- R140 to R142: a clock's frame carries its number, its sequence, never 0 or past 65,535, and its tier; the frame timer is
stopped exactly in tier FAST. -/
def DisplayClock.Ok (d : DisplayClock) (c : ClockId) : Prop :=
  d.frame.clock = c ∧ d.frame.sequence = d.sequence ∧ 1 ≤ d.sequence ∧ d.sequence ≤ Config.maxCount16 ∧
  d.frame.tier = d.tier ∧ (d.tier = .fast ↔ d.frameTimer = none)

/-- R145: the accumulators are held at their tops. -/
def Accumulator.Ok (a : Accumulator) : Prop := a.units ≤ 65535 ∧ a.awards ≤ 255

/-- The Display Unit is as it should be. -/
def Part.DisplayOk (p : Part) : Prop :=
  (∀ c, (p.displayClock c).Ok c) ∧ (∀ l c, (p.setOf l c).Ok)

/-! ### Trains, trolleys, lots and supply queues (R1 to R5, R13 to R20) -/

/-- R1, R7 to R9, R20: one train is FILLING at most; a train's trolleys stand at places up to the entries taken; a FILLING train has
taken fewer entries than stated, and its trolleys are staged; an ADMITTED one has as many trolleys as its live count. -/
def Supply.TrainsOk (s : Supply) : Prop :=
  (s.trains.filter (fun e => decide (e.2.state = .filling))).length ≤ 1 ∧
  (∀ t ∈ s.trolleys, s.trains.has t.2.train = true) ∧
  ∀ e ∈ s.trains, e.2.stated ≤ 16 ∧
    (∀ t ∈ s.trolleys, t.2.train = e.1 → t.2.clock = e.2.clock ∧ 1 ≤ t.2.place ∧ t.2.place ≤ e.2.taken ∧
      (t.2.state = .staged ↔ e.2.state = .filling)) ∧
    (e.2.state = .filling → e.2.taken < e.2.stated ∧
      (s.trolleys.filter (fun t => decide (t.2.train = e.1))).length = e.2.taken) ∧
    (e.2.state = .admitted → e.2.taken = e.2.stated ∧ 1 ≤ e.2.live ∧
      (s.trolleys.filter (fun t => decide (t.2.train = e.1))).length = e.2.live)

/-- R2, R3: the states the lots of a trolley may have in each state of the trolley. -/
def TrolleyState.allows (t : TrolleyState) (x : LotState) : Bool :=
  match t with
  | .staged => decide (x = .staged)
  | .announced => decide (x = .announced) || decide (x = .withdrawn)
  | .presented => decide (x ≠ .staged) && decide (x ≠ .announced)
  | .departing => x.done

/-- R2, R3: the units announced of a lot are those remaining and those sold; every lot is one of its trolley's list, every list names
lots of the trolley and its clock, and no lot twice, in the states that the trolley's state allows. -/
def Supply.LotsOk (s : Supply) : Prop :=
  (∀ e ∈ s.lots, e.2.announced = e.2.remaining + e.2.sold ∧ ∃ t ∈ s.trolleys, t.1 = e.2.trolley ∧ e.1 ∈ t.2.lots) ∧
  (s.trolleys.flatMap (fun t => t.2.lots)).Nodup ∧
  ∀ t ∈ s.trolleys, ∀ i ∈ t.2.lots, ∃ x ∈ (s.lots.find i).toList,
    x.trolley = t.1 ∧ x.clock = t.2.clock ∧ t.2.state.allows x.state = true

/-- R6, R13, R19, R20: a slot holds a PRESENTED or a DEPARTING trolley of its clock, and every such trolley stands in its clock's slot. -/
def Supply.SlotsOk (s : Supply) : Prop :=
  (∀ c ∈ clockIds, ∀ n ∈ (s.slots.get c).toList, ∃ t ∈ (s.trolleys.find n).toList,
    t.clock = c ∧ (t.state = .presented ∨ t.state = .departing)) ∧
  ∀ t ∈ s.trolleys, t.2.state = .presented ∨ t.2.state = .departing → s.slots.get t.2.clock = some t.1

/-- R5, R8, R15: a supply queue holds no lot twice and, with the lots staged for its clock, 128 at most. It holds every lot of its clock
that is admitted and not done, and a lot that is done only while the clock's report of it is in flight. -/
def Part.QueuesOk (p : Part) : Prop :=
  ∀ c ∈ clockIds, (p.supply.queues.get c).Nodup ∧
    (p.supply.queues.get c).length +
      (p.supply.lots.filter (fun e => decide (e.2.state = .staged) && decide (e.2.clock = c))).length ≤ Config.maxQueue ∧
    (∀ i ∈ p.supply.queues.get c, ∃ x ∈ (p.lot i).toList,
      x.clock = c ∧ x.state ≠ .staged ∧ (x.state.done = true → i ∈ (p.channels.get c).clockToSupply)) ∧
    (∀ e ∈ p.supply.lots, e.2.clock = c → e.2.state ≠ .staged → e.2.state.done = false → e.1 ∈ p.supply.queues.get c)

/-- The head lots that the Supply Unit has told a Clock Unit of and that this has not taken yet. -/
def Channels.headsTold (h : Channels) : List Nat :=
  h.supplyToClock.filterMap (fun | .headLotPresented i => some i | _ => none)

/-- Whether a lot stands at the head of a clock's queue in a state that passes a test. -/
def Part.headIs (p : Part) (c : ClockId) (i : Nat) (f : Lot → Bool) : Prop :=
  (p.supply.queues.get c).head? = some i ∧ ∃ x ∈ (p.lot i).toList, f x = true

/-- R15, R28, R29, R48: a clock has one lot in hand at most: one it is being told of, one in its run record, or one it has reported
done. That lot heads the clock's queue, and the quantity of every candidate lies within its remaining units. -/
def Part.HandsOk (p : Part) : Prop :=
  ∀ c ∈ clockIds, let h := p.channels.get c
    let k := p.clocks.get c
    h.headsTold.length + k.run.lot.toList.length + h.clockToSupply.length ≤ 1 ∧
    (∀ i ∈ h.headsTold, p.headIs c i (fun x => decide (x.state = .presented))) ∧
    (∀ i ∈ k.run.lot.toList, p.headIs c i (fun x => (decide (x.state = .presented) || decide (x.state = .selling)) &&
      k.candidates.all (fun y => decide (y.quantity ≤ x.remaining)))) ∧
    (∀ i ∈ h.clockToSupply, p.headIs c i (fun x => x.state.done &&
      decide ((p.trolley x.trolley).map Trolley.state = some .presented)))

/-- The Supply Unit is as it should be. -/
def Part.SupplyOk (p : Part) : Prop :=
  p.supply.TrainsOk ∧ p.supply.LotsOk ∧ p.supply.SlotsOk ∧ p.QueuesOk ∧ p.HandsOk

/-! ### Lines, invoices and credit (R97, R98, R116, R118 to R123, R128, R129) -/

/-- The lines of an invoice as the store holds them, in award order. -/
def Account.linesOf (a : Account) (v : Invoice) : List Line := v.lines.filterMap a.lines.find

/-- R116, R119 to R121, R123: no two invoices share a number; every line of the store is on one invoice, its own; an invoice holds 1 to
48 lines numbered from 1, fewer than 48 while OPEN, and its total is theirs; the store-low flag tells fewer than 64 free places. -/
def Account.LinesOk (a : Account) : Prop :=
  (a.invoices.map Invoice.number).Nodup ∧ (a.invoices.flatMap Invoice.lines).Nodup ∧
  (∀ e ∈ a.lines, ∃ v ∈ a.invoices, v.number = e.2.invoice ∧ e.1 ∈ v.lines) ∧
  (∀ v ∈ a.invoices, 1 ≤ v.lines.length ∧ v.lines.length ≤ 48 ∧ (v.state = .opened → v.lines.length < 48) ∧
    (∀ i ∈ v.lines, ∃ x ∈ (a.lines.find i).toList, x.invoice = v.number) ∧
    v.total = ((a.linesOf v).map Line.total).sum ∧
    (a.linesOf v).map Line.number = (List.range v.lines.length).map (fun i => i + 1)) ∧
  a.storeLow = decide (4096 - a.lines.length < 64)

/-- R97, R98, R122: every invoice's buyer has a record; a buyer's exposure is the sum of the totals of its lines and its line count
their number; its open invoice is its one OPEN invoice; its sequence names no invoice of the day. -/
def Account.CreditOk (a : Account) : Prop :=
  (∀ v ∈ a.invoices, a.buyers.has v.number.buyer = true) ∧
  ∀ e ∈ a.buyers,
    e.2.exposure = ((a.lines.vals.filter (fun x => decide (x.invoice.buyer = e.1))).map Line.total).sum ∧
    e.2.lines = (a.lines.vals.filter (fun x => decide (x.invoice.buyer = e.1))).length ∧
    e.2.openInvoice = a.openList.find? (fun n => decide (n.buyer = e.1)) ∧
    a.invoice ⟨a.hall.day, e.1, e.2.sequence⟩ = none

/-- The place of an invoice's state in the settlement queue: AWAITING, then SENDING, then CLOSED. -/
def Invoice.rank (v : Invoice) : Nat :=
  match v.state with
  | .awaiting => 0
  | .sending => 1
  | .opened | .closed => 2

/-- R121, R125, R128, R129: the open list names the OPEN invoices in the order of their opening, one of a buyer at most, and the
settlement queue names every other invoice once: the AWAITING ones first, then the SENDING one, which the cursor stands in, then the
CLOSED ones. -/
def Account.QueueOk (a : Account) : Prop :=
  a.openList = (a.invoices.filter (fun v => decide (v.state = .opened))).map Invoice.number ∧
  (a.openList.map InvoiceNumber.buyer).Nodup ∧ a.settleQueue.Nodup ∧
  (∀ v ∈ a.invoices, (v.number ∈ a.settleQueue ↔ v.state ≠ .opened) ∧ (v.cause = none ↔ v.state = .opened)) ∧
  (∀ n ∈ a.settleQueue, (a.invoice n).isSome = true) ∧
  (a.settleQueue.filterMap a.invoice).Pairwise (fun x y => x.rank < y.rank ∨ (x.rank = y.rank ∧ x.state ≠ .sending)) ∧
  (a.cursor = none → ∀ v ∈ a.invoices, v.state ≠ .sending) ∧
  (∀ k ∈ a.cursor.toList, ∃ v ∈ a.invoices, v.number = k.invoice ∧ v.state = .sending ∧
    (if k.headerDue then k.placed = 0 else k.placed < v.lines.length))

/-- The invoices and the credit of the Account Unit are as they should be. -/
def Account.InvoicesOk (a : Account) : Prop := a.LinesOk ∧ a.CreditOk ∧ a.QueueOk

/-! ### Counts that skip what is held (R84, R122) -/

/-- The first count from one on that is not held, 65,535 being followed by 1. -/
def FirstFree (held : Nat → Prop) (n q : Nat) : Prop :=
  ∃ j, q = Nat.iterate next16 j n ∧ ¬ held q ∧ ∀ i, i < j → held (Nat.iterate next16 i n)

/-! ### What links are told (R27, R143, R146, R151, R167) -/

/-- R150, R152: a link that is not DOWN once a good frame has reached it, before the frame's content is acted on. -/
def Link.heard (k : Link) (now : Nat) : Link :=
  { k with lossTimer := some (now + 400), state := if k.state = .syncing then .waiting else k.state,
           stats := { k.stats with framesIn := count32 k.stats.framesIn } }

/-- R151: a link once a unit has made an urgent message for it, which is not kept unless the link is UP. -/
def Link.told (k : Link) (m : OutMsg) : Link := if k.state = .up then k.putUrgent m else k

/-- The links once messages have been placed, in order, on the link of a role; with no link UP in it they are as they were. -/
def Part.roleTold (p : Part) (links : PerLink Link) (r : Role) (bs : List OutBody) : PerLink Link :=
  match p.linkOf r with
  | none => links
  | some n => links.upd n (fun x => bs.foldl (fun y b => y.putUrgent ⟨none, b⟩) x)

/-- The same for the console of a clock. -/
def Part.consoleTold (p : Part) (links : PerLink Link) (c : ClockId) (bs : List OutBody) : PerLink Link :=
  p.roleTold links (.console c) bs

/-- R167: the links once DAY STATE has gone to the SETTLEMENT, CONSOLE and SUPERVISION links. -/
def Part.dayTold (p : Part) (links : PerLink Link) (d : DayStateBody) : PerLink Link :=
  [Role.settlement, .console .c1, .console .c2, .console .c3, .console .c4, .supervision].foldl
    (fun ls r => p.roleTold ls r [.dayState d]) links

/-- R106: the links once a message for a bound desk has been made, with the local desk that it has on its link. -/
def Part.deskTold (p : Part) (links : PerLink Link) (i : Nat) (b : Nat → OutBody) : PerLink Link :=
  match p.deskTarget i with
  | none => links
  | some t => links.upd t.link (fun k => k.told ⟨none, b t.desk⟩)

/-- R143: a link once a CLOCK FRAME has been offered to it: a DISPLAY link that shows the clock holds it in place of one not yet sent. -/
def Part.frameOffered (p : Part) (f : Frame) (l : LinkId) (k : Link) : Link :=
  match p.display.clockSets.get l with
  | none => k
  | some set =>
    if p.serves l .display = true ∧ set.get f.clock = true then
      if k.bulk.any (fun m => m.isFrameOf f.clock) then
        { k with bulk := k.bulk.map (fun m => if m.isFrameOf f.clock then ⟨none, .clockFrame f⟩ else m) }
      else k.putBulk ⟨none, .clockFrame f⟩
    else k

/-- R145, R146: a link once the changed flag of a clock has been set on it: CHANGE NOTICE goes out where the flag was clear. -/
def Part.noticed (p : Part) (c : ClockId) (l : LinkId) (k : Link) : Link :=
  match p.display.sets.get l with
  | none => k
  | some t => if (t.get c).changed then k else k.told ⟨none, .changeNotice c⟩

/-! ### The head of a supply queue (R15, R16, R20) -/

/-- R15: what the Supply Unit answers the Clock Unit of a clock about the head of its queue. -/
def Supply.headAnswer (s : Supply) (c : ClockId) : ToClockFromSupply :=
  match s.queues.get c with
  | [] => .noPresentedHead
  | h :: _ =>
    match s.lots.find h with
    | none => .noPresentedHead
    | some t => if t.state = .presented then .headLotPresented h else .noPresentedHead

/-- R138: the next lot of a clock. -/
def Supply.nextLot (s : Supply) (c : ClockId) : Nat :=
  match s.queues.get c with
  | [] => 0
  | h :: rest =>
    match s.lots.find h with
    | none => h
    | some t => if t.state = .presented ∨ t.state = .selling then rest.head?.getD 0 else h

/-- R16, R138: logistics withdraws an ANNOUNCED lot: it leaves its queue with all its units, the clock is told when it was the head lot,
and the Display Unit is told. -/
def Part.lotWithdrawn (p : Part) (id : Nat) (t : Lot) : Part :=
  let v : Supply := { p.supply with
    lots := p.supply.lots.modify id (fun r => { r with state := .withdrawn, remaining := r.announced, sold := 0 }),
    queues := p.supply.queues.upd t.clock (fun q => q.filter (fun i => decide (i ≠ id))) }
  { p with
    supply := v,
    channels := p.channels.upd t.clock (fun h => { h with
      supplyToClock :=
        if (p.supply.queues.get t.clock).head? = some id then h.supplyToClock ++ [.lotWithdrawn id t.announced]
        else h.supplyToClock,
      supplyToDisplay := h.supplyToDisplay ++ [⟨v.nextLot t.clock, true⟩] }) }

/-! ### What a Clock Unit does and tells (R27, R29, R35, R56 to R63, R88 to R90, R170) -/

/-- R27: the hand-overs of a change of state: the state event, and whether the clock is quiet or active. -/
def Part.stateTold (q : Part) (c : ClockId) (h : Channels) : Channels :=
  { h with clockToDisplay := h.clockToDisplay ++ [.state (q.report c)],
           clockToAccount := h.clockToAccount ++
             [.activity (decide ((q.clocks.get c).state ≠ .idle ∧ (q.clocks.get c).state ≠ .ready)) none] }

/-- R27: a change of clock state after which the Clock Unit of the clock is `k`: its console, the Display Unit and the Account Unit are
told. -/
def Part.enters (p : Part) (c : ClockId) (k : ClockUnit) : Part :=
  let q : Part := { p with clocks := p.clocks.upd c (fun _ => k) }
  { q with
    links := p.consoleTold p.links c [.clockState (q.clockStateBody c)],
    channels := p.channels.upd c (q.stateTold c) }

/-- R29: a Clock Unit whose lot is done. -/
def ClockUnit.lotGone (k : ClockUnit) : ClockUnit :=
  { k with
    state := .idle, strideTimer := none, windowTimer := none, restartTimer := none,
    run := { k.run with
      lot := none, startPrice := none, step := none, minPrice := none, position := 0, price := 0, dwell := 0,
      restartPrice := none, heldFrom := none, holdCause := none, pendingHold := false, pendingWithdrawal := false } }

/-- R29: the lot `t` of a clock is done: its state is written, the clock enters IDLE with its run record cleared, LOT CLOSED follows
(log 13), and the Supply Unit is told. -/
def Part.lotEnds (p : Part) (c : ClockId) (id : Nat) (t : Lot) (o : LotOutcome) : Part :=
  let k := p.clocks.get c
  let gone : Part := { p with supply := { p.supply with
    lots := p.supply.lots.modify id (fun t => { t with state := o.lotState }) } }
  let q := gone.enters c k.lotGone
  { q with
    links := p.consoleTold q.links c [.lotClosed ⟨id, o, .console, t.remaining, t.sold, some k.run.run⟩],
    channels := q.channels.upd c (fun h => { h with clockToSupply := h.clockToSupply ++ [id] }) }

/-- R63: the BID REFUSED of a candidate, as it is handed over (the run number of an order's candidate: log 41). -/
def ClockUnit.refusal (k : ClockUnit) (c : ClockId) (cause : Cause) (x : Candidate) : ToAccount :=
  .outcome x.buyer x.origin.tag
    (.refused ⟨some c, some k.run.run, cause, some x.origin.origin, some (x.position, x.quantity)⟩)

/-- R170: the outcome report of a candidate refused, with the price of its reservation if one was sent. -/
def ClockUnit.refusalReport (k : ClockUnit) (c : ClockId) (cause : Cause) (offered : Option Nat) (x : Candidate) : Report :=
  .outcome ⟨c, k.run.run, k.run.lot.getD 0, x.buyer, x.origin.origin, x.position, x.quantity, .refused cause offered⟩

/-- The hand-overs once candidates have been refused with a cause, in list order, no reservation having been sent for them. -/
def ClockUnit.refusals (k : ClockUnit) (c : ClockId) (cause : Cause) (xs : List Candidate) (h : Channels) : Channels :=
  { h with clockToAccount := h.clockToAccount ++ xs.map (k.refusal c cause),
           clockReports := h.clockReports ++ xs.map (k.refusalReport c cause none) }

/-- R56: whether a pick list has a pick of a candidate, or room for one. -/
abbrev Candidate.HasRoom (x : Candidate) (picks : List Pick) : Prop :=
  (∃ k ∈ picks, k.buyer = x.buyer ∧ k.point = x.point) ∨ picks.length < 24

/-- R35, R61: a decision ends with no award: a pending withdrawal comes into force, a pending hold applies, or else the clock descends
again from its frozen position. -/
def Part.noAwardMade (p : Part) (c : ClockId) (id : Nat) (t : Lot) : Part :=
  let k : ClockUnit := { p.clocks.get c with candidates := [], arrivals := 0, tried := 0, inFlight := none }
  let back : HeldFrom := if k.run.minPrice = some k.run.price then .floor else .running
  if k.run.pendingWithdrawal then ({ p with clocks := p.clocks.upd c (fun _ => k) } : Part).lotEnds c id t .withdrawn
  else if k.run.pendingHold then
    p.enters c { k with state := .held, run := { k.run with heldFrom := some back, pendingHold := false } }
  else p.enters c { k with state := back.state, strideTimer := some (p.now + k.config.stridePeriod) }

/-- R56, R57: candidates for the lot `t` are tried in list order: those that find no pick room are refused PICKS_FULL, and a reservation
goes out for the first other; with none the decision ends with no award. -/
def Part.tries (p : Part) (c : ClockId) (id : Nat) (t : Lot) (picks : List Pick) (xs : List Candidate) : Part :=
  let k := p.clocks.get c
  let full := xs.takeWhile (fun x => decide (¬ x.HasRoom picks))
  let q : Part := { p with channels := p.channels.upd c (k.refusals c .picksFull full) }
  match xs.drop full.length with
  | [] => q.noAwardMade c id t
  | x :: _ =>
    let price := k.run.priceOf x.position
    { q with
      clocks := p.clocks.upd c (fun k => { k with tried := k.tried + full.length, inFlight := some price }),
      channels := q.channels.upd c (fun h => { h with clockToAccount := h.clockToAccount ++
        [.reservation ⟨x.buyer, id, t.product, t.grower, t.cls, t.stems, price, x.quantity, k.run.run⟩] }) }

/-- R55, R56: the window of a clock expires: AWARDING is entered and the candidates are tried. -/
def Part.decides (p : Part) (c : ClockId) (id : Nat) (t : Lot) (picks : List Pick) : Part :=
  let k : ClockUnit := { p.clocks.get c with state := .awarding, windowTimer := none, tried := 0 }
  (p.enters c k).tries c id t picks k.candidates

/-- R35, R53: with its candidates entered, a descending clock enters WINDOW; a stop window of 0 ms expires at once. `told` is what the
entries hand over. -/
def Part.opensWindow (p : Part) (c : ClockId) (id : Nat) (t : Lot) (picks : List Pick) (k : ClockUnit)
    (told : Channels → Channels) : Part :=
  let q := p.enters c { k with
    state := .window, strideTimer := none, windowTimer := some (p.now + k.config.stopWindow) }
  let q : Part := { q with channels := q.channels.upd c told }
  if k.config.stopWindow = 0 then q.decides c id t picks else q

/-- R89: whether an order meets the first three conditions at a price of a lot: product, limit and fired mark. -/
def Order.meets (o : Order) (t : Lot) (price : Nat) : Bool :=
  decide (o.product = t.product) && decide (price ≤ o.limit) && !o.fired

/-- R90: the candidate of an order that fires for the lot `t` at the position of a run, with an arrival number. -/
def Order.candidate (o : Order) (t : Lot) (r : RunRecord) (arrival : Nat) : Candidate :=
  { buyer := o.buyer, point := o.point, origin := .order o.number, position := r.position, asked := o.asked,
    quantity := clampQuantity t.minPurchase t.remaining o.asked, arrival := arrival }

/-- R90, R169: the bid report of an order that fires (log 20). -/
def Order.report (o : Order) (c : ClockId) (t : Lot) (r : RunRecord) : Report :=
  .bid ⟨c, o.buyer, none, r.run, some (.order o.number), r.position, o.asked, none,
        some ⟨r.position, r.position, clampQuantity t.minPurchase t.remaining o.asked⟩⟩

/-- R52, R53, R88 to R90: a position of a run on the lot `t` is offered to the orders of a descending clock. In a hall that is OPEN every
order that meets its conditions has its fired mark set; those not blocked enter their candidates in table order, the first eight of
them, and open the window; from the ninth on each is refused OUTBID at once, behind its report (log 50). -/
def Part.offers (p : Part) (c : ClockId) (id : Nat) (t : Lot) (picks : List Pick) : Part :=
  let k := p.clocks.get c
  let fires := k.orders.filter (fun o => o.meets t k.run.price && !o.blocked)
  let marked : ClockUnit := { k with
    orders := k.orders.map (fun o => if o.meets t k.run.price then { o with fired := true } else o) }
  let late (o : Order) : Candidate := o.candidate t k.run 0
  if k.run.hallView ≠ .opened then p
  else if fires = [] then { p with clocks := p.clocks.upd c (fun _ => marked) }
  else
    p.opensWindow c id t picks
      { marked with
        candidates := (fires.take 8).zipIdx.map (fun e => e.1.candidate t k.run (k.arrivals + 1 + e.2)),
        arrivals := k.arrivals + (fires.take 8).length }
      (fun h => { h with
        clockToAccount := h.clockToAccount ++ (fires.drop 8).map (fun o => k.refusal c .outbid (late o)),
        clockReports := h.clockReports ++ (fires.take 8).map (fun o => o.report c t k.run) ++
          (fires.drop 8).flatMap (fun o => [o.report c t k.run, k.refusalReport c .outbid none (late o)]) })

/-- R26, R30, R36, R73, R88: a run starts on a lot at a price, its position 0 not yet offered: the first run fixes the ceiling and makes
the lot SELLING, the run record is written, the stride timer starts, the orders' fired marks are cleared, and RUNNING is entered, or
FLOOR at the minimum price. -/
def Part.runStarts (p : Part) (c : ClockId) (id start : Nat) : Part :=
  let k := p.clocks.get c
  ({ p with supply := { p.supply with lots := p.supply.lots.modify id (fun t =>
      if t.ceiling = none then { t with ceiling := some start, state := .selling } else t) } } : Part).enters c { k with
    state := if k.run.minPrice = some start then .floor else .running, restartTimer := none,
    strideTimer := some (p.now + k.config.stridePeriod), orders := k.orders.map (fun o => { o with fired := false }),
    run := { k.run with
      run := if k.run.run = 65535 then 1 else k.run.run + 1, startPrice := some start, step := some k.config.priceStep,
      position := 0, price := start, dwell := 0, restartPrice := none } }

/-- R32, R33: a stride ends and the clock descends on, its next position not yet offered: position, price and dwell count are written,
FLOOR is entered from RUNNING at the minimum price, the stride timer starts again, and the Display Unit is sent a stride event. -/
def Part.strides (p : Part) (c : ClockId) (st : ClockState) (price dwell : Nat) : Part :=
  let k := p.clocks.get c
  let k' : ClockUnit := { k with
    state := st, strideTimer := some (p.now + k.config.stridePeriod),
    run := { k.run with position := k.run.position + 1, price := price, dwell := dwell } }
  let q := if st = k.state then { p with clocks := p.clocks.upd c (fun _ => k') } else p.enters c k'
  { q with channels := q.channels.upd c (fun h => { h with clockToDisplay := h.clockToDisplay ++ [.stride (q.report c)] }) }

/-- The orders left in a table when every order that passes a test has ended. -/
def ClockUnit.ordersLeft (k : ClockUnit) (f : Order → Bool) : List Order :=
  k.orders.filter (fun o => !(k.orders.any (fun x => f x && decide (x.number = o.number))))

/-- R96: ORDER ENDED of an order at a desk target, as it is handed over. -/
def Order.ended (o : Order) (c : ClockId) (reason : EndReason) (count : Nat) (target : DeskTarget) (tag : Option Nat) : ToAccount :=
  .orderEnded target.link tag ⟨c, o.number, o.buyer, o.product, reason, count, target.desk⟩

/-- R89: an order that is not judged to fire, nor its fired mark set, at a price of a lot's product with no window open. -/
def Order.passesBy (o : Order) (product price : Nat) : Prop := o.product ≠ product ∨ o.limit < price ∨ o.fired = true

/-! ### The sending of invoices (R129, R130) -/

/-- R130: the messages of an invoice: INVOICE HEADER, then INVOICE LINE of each of its lines in award order. -/
def Account.messagesOf (a : Account) (v : Invoice) (sentBefore : Bool) : List OutMsg :=
  ⟨none, .invoiceHeader v.number v.cause v.lines.length v.total sentBefore⟩ ::
    v.lines.filterMap (fun i => (a.lines.find i).map (fun x => ⟨none, .invoiceLine i x⟩))

/-- R129: the CLOSED invoices, in the order of the settlement queue. -/
def Account.due (a : Account) : List Invoice :=
  (a.settleQueue.filterMap a.invoice).filter (fun v => decide (v.state = .closed))

/-- R129, R130: with the cursor idle, CLOSED invoices begin one after another while their messages go into `room` free places. One whose
messages are all placed is AWAITING; one that fills the room before is SENDING, and the cursor says how far. The account after it, and
the messages placed. -/
def Account.sends (a : Account) (room : Nat) (vs : List Invoice) : Account × List OutMsg :=
  match vs with
  | [] => (a, [])
  | v :: rest =>
    let ms := a.messagesOf v v.sentBefore
    let becomes (st : InvoiceState) : Account := { a with invoices := a.invoices.map (fun x =>
      if x.number = v.number then { x with state := st, sentBefore := true } else x) }
    if ms.length ≤ room then
      let r := (becomes .awaiting).sends (room - ms.length) rest
      (r.1, ms ++ r.2)
    else
      ({ becomes .sending with cursor := some ⟨v.number, decide (room = 0), room - 1, v.sentBefore⟩ }, ms.take room)

/-- R130: the SENDING invoice `v` goes on from the cursor `k` into `room` free places; once its last message is placed it is AWAITING and
the CLOSED invoices follow. -/
def Account.sendsOn (a : Account) (room : Nat) (k : Cursor) (v : Invoice) : Account × List OutMsg :=
  let ms := (a.messagesOf v k.markBefore).drop (if k.headerDue then 0 else k.placed + 1)
  if ms.length ≤ room then
    let done : Account := { a with
      cursor := none,
      invoices := a.invoices.map (fun x => if x.number = v.number then { x with state := .awaiting } else x) }
    let r := done.sends (room - ms.length) done.due
    (r.1, ms ++ r.2)
  else
    ({ a with cursor := some { k with
      headerDue := k.headerDue && decide (room = 0), placed := if k.headerDue then room - 1 else k.placed + room } },
     ms.take room)

/-- R129: the start check: with the SETTLEMENT link UP, no WAIT of its peer in force and the cursor idle, the CLOSED invoices are sent as
far as the bulk queue has room. -/
def Part.startsSending (p : Part) : Part :=
  match p.linkOf .settlement with
  | none => p
  | some l =>
    if p.account.cursor = none ∧ (p.links.get l).peerWait = false then
      let r := p.account.sends (32 - (p.links.get l).bulk.length) p.account.due
      { p with links := p.links.upd l (fun k => { k with bulk := k.bulk ++ r.2 }), account := r.1 }
    else p

/-- R125: the account once an OPEN invoice is closed with a cause. -/
def Account.closes (a : Account) (cause : CloseCause) (n : InvoiceNumber) : Account :=
  { a with
    invoices := a.invoices.map (fun x => if x.number = n then { x with state := .closed, cause := some cause } else x),
    openList := a.openList.filter (fun x => decide (x ≠ n)), settleQueue := a.settleQueue ++ [n],
    buyers := a.buyers.modify n.buyer (fun x => { x with openInvoice := none }) }

/-! ### Start prices (R30) -/

/-- R30: the start price of a START on a lot, by its ceiling, the restart price and the price given. -/
def StartPriceIs (t : Lot) (restart given : Option Nat) (start : Nat) : Prop :=
  (t.ceiling = none → given = none → start = t.suggested) ∧
  (∀ g, t.ceiling = none → given = some g → t.minPrice ≤ g → start = g) ∧
  (∀ g, t.ceiling = none → given = some g → g < t.minPrice → start = t.minPrice) ∧
  (∀ top, t.ceiling = some top → given = none → restart = some start) ∧
  (∀ top g, t.ceiling = some top → given = some g →
    (g < t.minPrice → start = min t.minPrice top) ∧ (t.minPrice ≤ g → g ≤ top → start = g) ∧
    (t.minPrice ≤ g → top < g → start = top))

/-! ### After reset (R168) -/

/-- A Clock Unit as R23, R25, R49, R57, R67 and R84 give it for the moment after reset. -/
def ClockUnit.AfterReset (k : ClockUnit) : Prop :=
  k.state = .idle ∧ k.config = ⟨25, 10, 40, 4, 40, 3, 1000, 2⟩ ∧ k.run.lot = none ∧ k.run.run = 0 ∧
  k.run.startPrice = none ∧ k.run.step = none ∧ k.run.minPrice = none ∧ k.run.position = 0 ∧ k.run.price = 0 ∧
  k.run.dwell = 0 ∧ k.run.restartPrice = none ∧ k.run.heldFrom = none ∧ k.run.holdCause = none ∧
  k.run.pendingHold = false ∧ k.run.pendingWithdrawal = false ∧ k.run.lastAward = none ∧ k.run.hallView = .closed ∧
  k.strideTimer = none ∧ k.windowTimer = none ∧ k.restartTimer = none ∧ k.candidates = [] ∧ k.arrivals = 0 ∧ k.tried = 0 ∧
  k.inFlight = none ∧ k.orders = [] ∧ k.nextOrder = 1

/-- A Link Interface as the table of spec 09 gives it after reset. -/
def Link.AfterReset (k : Link) : Prop :=
  k.state = .down ∧ k.role = none ∧ k.weight = .w8 ∧ k.inbound = [] ∧ k.waitSent = false ∧ k.peerWait = false ∧
  k.urgent = [] ∧ k.bulk = [] ∧ k.service = 0 ∧ k.gapPending = false ∧ k.flowPending = none ∧ k.keepPending = false ∧
  k.lossTimer = none ∧ k.keepTimer = none ∧ k.stats = ⟨0, 0, 0, 0, 0, 0, 0⟩ ∧ k.lastSent = none

/-- The Display Unit's state of a clock as R136, R140 and R149 give it after reset: the view reads IDLE and 0 in every field, and the
frame composed when reset ends has sequence 1 and tier STEADY. -/
def DisplayClock.AfterReset (d : DisplayClock) (c : ClockId) : Prop :=
  d.view = ⟨.idle, 0, 0, 0, 0, 0, 0, 0, 0, 0, 0, 0, none, 0⟩ ∧
  d.frame = ⟨c, 1, .idle, 0, 0, 0, 0, 0, 0, 0, 0, 0, 0, false, none, .steady⟩ ∧ d.tier = .steady ∧ d.lastChange = 0 ∧
  d.frameTimer = some 250 ∧ d.strideCount = 0 ∧ d.divisor = 2 ∧ d.sequence = 1

/-- R67, R168: no hand-over of a clock is in flight after reset. -/
def Channels.AfterReset (h : Channels) : Prop :=
  h.accountToClock = [] ∧ h.clockToAccount = [] ∧ h.supplyToClock = [] ∧ h.clockToSupply = [] ∧ h.clockToDisplay = [] ∧
  h.supplyToDisplay = [] ∧ h.clockReports = []

/-- R168: every block holds the values that its chapter gives for the moment after reset, no hand-over is in flight, and the time base
counts from 0. -/
def Part.AfterReset (p : Part) : Prop :=
  (∀ l, (p.links.get l).AfterReset) ∧ (∀ c, (p.clocks.get c).AfterReset) ∧ (∀ c, (p.displayClock c).AfterReset c) ∧
  (∀ c, (p.channels.get c).AfterReset) ∧ p.accountReports = [] ∧
  p.supply.trains = [] ∧ p.supply.trolleys = [] ∧ p.supply.lots = [] ∧ (∀ c, p.supply.queues.get c = []) ∧
  (∀ c, p.supply.slots.get c = none) ∧ p.supply.discard = none ∧
  p.account.hall.state = .closed ∧ p.account.hall.day = 0 ∧ p.account.hall.mark = none ∧
  (∀ c, p.account.hall.active.get c = false ∧ p.account.hall.answered.get c = false) ∧
  p.account.buyers = [] ∧ p.account.desks = [] ∧ (∀ l, p.account.groups.get l = none) ∧ p.account.tariff = none ∧
  p.account.generation = 0 ∧ p.account.lines = [] ∧ p.account.invoices = [] ∧ p.account.openList = [] ∧
  p.account.settleQueue = [] ∧ p.account.cursor = none ∧ p.account.storeLow = false ∧
  (∀ l, p.display.sets.get l = none ∧ p.display.clockSets.get l = none) ∧ p.display.mirror = none ∧ p.now = 0

/-! ### Steps -/

/-- A property of the part that every step keeps. -/
def Kept (inv : Part → Prop) : Prop := ∀ s t : State, inv s.part → step s = .next t → inv t.part

end Sys2Proof.Machine
end

