-- ==== Sys2Proof/Certificates/Slice0/Obligations.lean ====
section
/-! DEFINITION. Obligations.lean: the statements for the provers. OBLIGATIONS.json gives each its title and the rules it rests on. -/

open Sys2Proof Sys2Proof.Machine

/-! ### Steps, reset, time and invariants -/

/-- A step takes the command at the front of the queue and runs it on the machine with the rest of the queue. -/
def Obligations.StepRunsFrontCommand : Prop :=
  ∀ (c : Instr) (rest : List Instr) (s : State), s.pending = c :: rest → step s = exec c { s with pending := rest }

/-- The model's choices (logs 2 to 5): every command answers a next state and leaves the queue of commands alone; with the pin low only
the two reset commands change anything. With no command waiting a step is one millisecond of the time base, none while the pin is low,
and no step but the two reset commands sets the time base back. -/
def Obligations.TimeAndIdling : Prop :=
  (∀ (c : Instr) (s : State),
     (∃ t, exec c s = .next t ∧ t.pending = s.pending) ∧
     (s.pinLow = true → c ≠ .reset → c ≠ .resetPinHeldLow → exec c s = .next s)) ∧
  (∀ s : State, s.pending = [] →
     (s.pinLow = false → step s = .next (s.after { s.part with now := s.part.now + 1 })) ∧
     (s.pinLow = true → step s = .next s)) ∧
  (∀ s t : State, (∀ c rest, s.pending = c :: rest → c ≠ .reset ∧ c ≠ .resetPinHeldLow) → step s = .next t →
     s.part.now ≤ t.part.now)

/-- R168: RESET and RESET_PIN_HELD_LOW put every block in its after-reset values, with no hand-over in flight, and the invariants below hold
there. That the queue of commands outlasts them, and that the pin stays low after the second, are the model's (logs 5 and 36), as are
the fields that it keeps for the rules' sake (logs 24 and 33). -/
def Obligations.ResetCommands : Prop :=
  (∀ s : State,
     (∃ t, exec .reset s = .next t ∧ t.part.AfterReset ∧ t.pinLow = false ∧ t.pending = s.pending) ∧
     (∃ t, exec .resetPinHeldLow s = .next t ∧ t.part.AfterReset ∧ t.pinLow = true ∧ t.pending = s.pending)) ∧
  State.reset.part.AfterReset ∧
  State.reset.part.LinksOk ∧ State.reset.part.RolesOk ∧ State.reset.part.ClocksOk ∧ State.reset.part.TablesOk ∧
  State.reset.part.BindingsOk ∧ State.reset.part.DisplayOk ∧ State.reset.part.SupplyOk ∧
  State.reset.part.account.InvoicesOk

/-- Every step keeps the links within their capacities and the role table as it should be. -/
def Obligations.LinksAndRolesKept : Prop := Kept (fun p => p.LinksOk ∧ p.RolesOk)

/-- Every step keeps each Clock Unit's state, run record, timers, candidate list and order table in agreement: among them R49 (the order of
the candidates, one of a buyer) and R84 (one order of a buyer, no order number twice). In READY the current price is 0, unless the
part keeps that of the decided run there, a free value (log 11). -/
def Obligations.ClocksKept : Prop := Kept Part.ClocksOk

/-- Every step keeps the Supply Unit's records in agreement: among them R3 (the units announced of a lot are those remaining and those sold),
R5 (a supply queue holds 128 lots at most and none twice), R1 and R2 (what the states of trains, trolleys and lots allow one another), and
that a clock has one lot in hand at most, the head of its queue. -/
def Obligations.SupplyKept : Prop := Kept (fun p => p.ClocksOk ∧ p.TablesOk ∧ p.SupplyOk)

/-- Every step keeps the lines, the invoices and the credit in agreement: among them R98 (a buyer's exposure is the sum of its line totals),
R123 (an invoice's lines and total, a buyer's line count), R122 (the numbers of invoices), R128 (the settlement queue) and R129 (the
cursor). -/
def Obligations.InvoicesKept : Prop := Kept (fun p => p.TablesOk ∧ p.account.InvoicesOk)

/-- Every step keeps the tables in their canonical form and within their capacities, and the two sides of every binding in
agreement. -/
def Obligations.TablesAndBindingsKept : Prop := Kept (fun p => p.TablesOk ∧ p.BindingsOk)

/-- Every step keeps each clock's frame, sequence, tier and frame timer in agreement. -/
def Obligations.DisplayKept : Prop := Kept Part.DisplayOk

/-! ### Arithmetic and translations -/

/-- R47, R48, R69: the price of a run at a position, and the clamps of the pressed position and of the asked quantity. -/
def Obligations.PricesAndClamps : Prop :=
  (∀ S s M p q : Nat, M ≤ S →
     (p * s ≤ S - M → priceAt S s M p = S - p * s) ∧
     (S - M < p * s → priceAt S s M p = M) ∧
     M ≤ priceAt S s M p ∧ priceAt S s M p ≤ S ∧
     (p ≤ q → priceAt S s M q ≤ priceAt S s M p) ∧
     (p ≤ 65534 → s ≤ 65535 → p * s ≤ 4294770690)) ∧
  ((∀ arrival lag pressed : Nat,
     (arrival ≤ pressed → clampPosition arrival lag pressed = arrival) ∧
     (pressed < arrival - lag → clampPosition arrival lag pressed = arrival - lag) ∧
     (arrival - lag ≤ pressed → pressed ≤ arrival → clampPosition arrival lag pressed = pressed)) ∧
   (∀ m r asked : Nat, m ≤ r →
     (asked < m → m = r ∨ m ≤ r - m → clampQuantity m r asked = m) ∧
     (r < asked → clampQuantity m r asked = r) ∧
     (m ≤ asked → asked ≤ r → asked = r ∨ m ≤ r - asked → clampQuantity m r asked = asked) ∧
     (m ≤ asked → asked < r → r - asked < m → clampQuantity m r asked = r) ∧
     m ≤ clampQuantity m r asked ∧ clampQuantity m r asked ≤ r ∧
     (clampQuantity m r asked = r ∨ m ≤ r - clampQuantity m r asked)))

/-- R75 to R78: the goods and the commission of the line of a reservation with their roundings and largest values, its fees and its total. -/
def Obligations.LineFigures : Prop :=
  (∀ (a : Account) (r : Reservation) (es : List TariffEntry) (e : TariffEntry), a.tariff = some es → es[r.cls]? = some e →
     let gross := r.price * (r.quantity * r.stems)
     let f := a.figures r
     f.goods = (gross + 5) / 10 ∧ (1 ≤ gross → gross ≤ 4 → f.goods = 0) ∧ (gross = 5 → f.goods = 1) ∧
     (r.price ≤ 9999999 → r.quantity ≤ 9999 → r.stems ≤ 1000 → f.goods ≤ 9998999000100) ∧
     f.commission = (f.goods * e.rate + 5000) / 10000 ∧ (e.rate = 0 → f.commission = 0) ∧
     (r.price ≤ 9999999 → r.quantity ≤ 9999 → r.stems ≤ 1000 → e.rate ≤ 2500 →
       f.goods * e.rate ≤ 24997497500250000 ∧ f.goods * e.rate < 2 ^ 55 ∧ f.commission ≤ 2499749750025)) ∧
  (∀ (a : Account) (r : Reservation) (es : List TariffEntry) (e : TariffEntry), a.tariff = some es → es[r.cls]? = some e →
     let f := a.figures r
     f.container = e.container * r.quantity ∧ f.lineFee = e.lineFee ∧
     f.total = f.goods + f.commission + f.container + f.lineFee ∧
     (r.price ≤ 9999999 → r.quantity ≤ 9999 → r.stems ≤ 1000 → e.rate ≤ 2500 → e.container ≤ 9999 → e.lineFee ≤ 9999 →
       f.total ≤ 12498848740125))

/-- R105: the two translations of desks are inverse to each other on the mapped desks of a map without overlaps. -/
def Obligations.DeskTranslationsInverse : Prop :=
  ∀ m : List Region, selfOverlap m = false →
    (∀ d i, localToHall m d = some i → i < 512 ∧ hallToLocal m i = some d) ∧
    (∀ d i, hallToLocal m i = some d → localToHall m d = some i)

/-- R152, R172: the part reads a frame made of a message of 1 to 255 bytes as that message, whatever its flags byte; and the frames that
are bad whatever their content: too short, a wrong check, a type or a length that is not formed. -/
def Obligations.FramesReadAndMade : Prop :=
  ((∀ raw : List Byte, 1 ≤ raw.length → raw.length ≤ 255 → readFrame (messageFrame raw) = .message raw) ∧
   (∀ (flags : Byte) (raw : List Byte), 1 ≤ raw.length → raw.length ≤ 255 →
     readFrame (withCheck (toField 1 1 ++ [flags] ++ toField 1 raw.length ++ raw)) = .message raw)) ∧
  ((∀ bytes : List Byte, bytes.length < 3 → readFrame bytes = .bad) ∧
   (∀ bytes : List Byte, 3 ≤ bytes.length →
     (frameCheck (bytes.take (bytes.length - 2))).toNat ≠ fieldAt bytes (bytes.length - 2) 2 → readFrame bytes = .bad) ∧
   (∀ bytes : List Byte, fieldAt bytes 0 1 < 1 ∨ 4 < fieldAt bytes 0 1 → readFrame bytes = .bad) ∧
   (∀ bytes : List Byte, 2 ≤ fieldAt bytes 0 1 → 3 < bytes.length → readFrame bytes = .bad) ∧
   (∀ bytes : List Byte, fieldAt bytes 0 1 = 1 → fieldAt bytes 2 1 = 0 ∨ fieldAt bytes 2 1 + 5 ≠ bytes.length →
     readFrame bytes = .bad))

/-! ### Links -/

/-- R150, R161: line activity on a link that is DOWN starts its timers; the end of its keep timer makes KEEP pending. On a link that is not
DOWN line activity changes nothing (log 37), with no keep timer running its expiry changes nothing (log 2), and the expiry moves the time
base on to the timer's end (log 3): the model's choices. -/
def Obligations.LineAndKeepTimers : Prop :=
  ∀ (l : LinkId) (s : State), s.pinLow = false →
    ((s.part.links.get l).state = .down → exec (.lineActivity l) s = .next (s.after { s.part with
      links := s.part.links.upd l (fun k => { k with
        state := .syncing, lossTimer := some (s.part.now + 400), keepTimer := some (s.part.now + 100) }) })) ∧
    ((s.part.links.get l).state ≠ .down → exec (.lineActivity l) s = .next s) ∧
    (∀ t, (s.part.links.get l).keepTimer = some t → exec (.keepTimerExpiry l) s = .next (s.after { s.part with
      links := s.part.links.upd l (fun k => { k with keepPending := true, keepTimer := none }),
      now := max s.part.now t })) ∧
    ((s.part.links.get l).keepTimer = none → exec (.keepTimerExpiry l) s = .next s)

/-- R152, R153, R160: a received frame is counted and a message is queued or dropped, with the flow marker this makes pending; KEEP, WAIT
and GO act at once on a link that is not DOWN, as the marker's row and as a marker frame alike. A GO on a SETTLEMENT link is stated with
the sending of invoices. -/
def Obligations.FramesAndMarkersTaken : Prop :=
  (∀ (l : LinkId) (s : State), s.pinLow = false → (s.part.links.get l).state ≠ .down →
     (∀ bytes, readFrame bytes = .bad → exec (.frameReceived l bytes) s = .next (s.after { s.part with
       links := s.part.links.upd l (fun k => { k with stats := { k.stats with badFrames := count32 k.stats.badFrames } }) })) ∧
     (∀ raw, 1 ≤ raw.length → raw.length ≤ 255 → (s.part.links.get l).inbound.length < 16 →
       exec (.frameReceived l (messageFrame raw)) s = .next (s.after { s.part with
         links := s.part.links.upd l (fun k =>
           let k := k.heard s.part.now
           if 11 ≤ k.inbound.length ∧ k.waitSent = false then
             { k with inbound := k.inbound ++ [raw], flowPending := some .wait, waitSent := true }
           else { k with inbound := k.inbound ++ [raw] }) })) ∧
     (∀ raw, 1 ≤ raw.length → raw.length ≤ 255 → 16 ≤ (s.part.links.get l).inbound.length →
       exec (.frameReceived l (messageFrame raw)) s = .next (s.after { s.part with
         links := s.part.links.upd l (fun k =>
           let k := k.heard s.part.now
           { k with flowPending := some .wait,
                    stats := { k.stats with inboundDrops := count32 k.stats.inboundDrops } }) }))) ∧
  (∀ (l : LinkId) (s : State), s.pinLow = false → (s.part.links.get l).state ≠ .down →
     exec (.keepMarker l) s = .next (s.after { s.part with links := s.part.links.upd l (fun k => k.heard s.part.now) }) ∧
     exec (.waitMarker l) s = .next (s.after { s.part with
       links := s.part.links.upd l (fun k => { k.heard s.part.now with peerWait := true }) }) ∧
     (s.part.serves l .settlement = false → exec (.goMarker l) s = .next (s.after { s.part with
       links := s.part.links.upd l (fun k => { k.heard s.part.now with peerWait := false }) })) ∧
     exec (.frameReceived l (withCheck [2#8])) s = exec (.keepMarker l) s ∧
     exec (.frameReceived l (withCheck [3#8])) s = exec (.waitMarker l) s ∧
     exec (.frameReceived l (withCheck [4#8])) s = exec (.goMarker l) s)

/-- R12, R133, R144, R150, R151, R169: a link whose loss timer ends goes DOWN with its queues, timers and flags cleared and its statistics
kept (and the model's record of the last frame sent, log 24), and the time base moves on to the timer's end (log 3). What the Supply,
Account and Display Units do at the loss of a LOGISTICS, SETTLEMENT, DISPLAY or SUPERVISION link; a link without a role changes in
nothing else, and with no loss timer running nothing happens (log 2). -/
def Obligations.LinkLost : Prop :=
  ∀ (l : LinkId) (s : State), s.pinLow = false →
    ((s.part.links.get l).lossTimer = none → exec (.lossTimerExpiry l) s = .next s) ∧
    (∀ t, (s.part.links.get l).lossTimer = some t →
      let lost : Part := { s.part with
        links := s.part.links.upd l (fun k =>
          { state := .down, role := none, weight := .w8, inbound := [], waitSent := false, peerWait := false, urgent := [],
            bulk := [], service := 0, gapPending := false, flowPending := none, keepPending := false, lossTimer := none,
            keepTimer := none, stats := k.stats, lastSent := k.lastSent }),
        now := max s.part.now t }
      ((s.part.links.get l).role = none → exec (.lossTimerExpiry l) s = .next (s.after lost)) ∧
      ((s.part.links.get l).role = some .logistics → s.part.supply.filling = none →
        exec (.lossTimerExpiry l) s = .next (s.after { lost with supply := { s.part.supply with discard := none } })) ∧
      (∀ id tr, (s.part.links.get l).role = some .logistics → s.part.supply.filling = some (id, tr) →
        exec (.lossTimerExpiry l) s = .next (s.after { lost with supply := { s.part.supply with
          trains := s.part.supply.trains.del id,
          trolleys := s.part.supply.trolleys.keep (fun x => decide (x.state ≠ .staged)),
          lots := s.part.supply.lots.keep (fun x => decide (x.state ≠ .staged)), discard := none } })) ∧
      ((s.part.links.get l).role = some .settlement →
        exec (.lossTimerExpiry l) s = .next (s.after { lost with account := { s.part.account with
          invoices := s.part.account.invoices.map (fun i =>
            if i.state = .sending ∨ i.state = .awaiting then { i with state := .closed } else i),
          cursor := none } })) ∧
      ((s.part.links.get l).role = some .display →
        exec (.lossTimerExpiry l) s = .next (s.after { lost with display := { s.part.display with
          clockSets := s.part.display.clockSets.upd l (fun _ => none) } })) ∧
      ((s.part.links.get l).role = some .supervision →
        exec (.lossTimerExpiry l) s = .next (s.after { lost with display := { s.part.display with mirror := none } })))

/-- R106, R112, R145, R151: at the loss of a DESK GROUP link every bound desk of its map is unbound, in index order (log 21), with its buyer's
bound desk and order mark cleared and an end request with the lost desk target sent to every clock; every other desk and buyer stays. Its
map and accumulators are removed. The time base moves on to the timer's end (log 3). -/
def Obligations.LostDeskGroupUnbinds : Prop :=
  ∀ (l : LinkId) (t : Nat) (g : DeskGroup) (s : State), s.pinLow = false → (s.part.links.get l).lossTimer = some t →
    (s.part.links.get l).role = some .deskGroup → s.part.account.groups.get l = some g →
    let a := s.part.account
    let leaves (buyer : Nat) : Bool := a.desks.any (fun e => decide (e.2.buyer = buyer) && (hallToLocal g.map e.1).isSome)
    let ends : List ToClock := a.desks.filterMap (fun e =>
      (hallToLocal g.map e.1).map (fun d => .endOrders e.2.buyer (some ⟨l, d⟩)))
    exec (.lossTimerExpiry l) s = .next (s.after { s.part with
      links := s.part.links.upd l Link.lost, now := max s.part.now t,
      account := { a with
        groups := a.groups.upd l (fun _ => none),
        desks := a.desks.filter (fun e => (hallToLocal g.map e.1).isNone),
        buyers := a.buyers.map (fun e => if leaves e.1 then (e.1, { e.2 with desk := none, orderMark := false }) else e) },
      display := { s.part.display with sets := s.part.display.sets.upd l (fun _ => none) },
      channels := s.part.channels.map (fun h => { h with accountToClock := h.accountToClock ++ ends }) })

/-- R40: at the loss of its console a clock that descends or counts its restart delay is held with cause CONSOLE_LOST, one in a window or a
decision has a hold made pending, and one IDLE, READY or HELD is left as it is. The time base moves on to the timer's end (log 3). -/
def Obligations.LostConsoleHoldsClock : Prop :=
  ∀ (l : LinkId) (c : ClockId) (t : Nat) (s : State), s.pinLow = false → (s.part.links.get l).lossTimer = some t →
    (s.part.links.get l).role = some (.console c) →
    let k := s.part.clocks.get c
    let lost : Part := { s.part with links := s.part.links.upd l Link.lost, now := max s.part.now t }
    let becomes (p : Part) : Prop := exec (.lossTimerExpiry l) s = .next (s.after p)
    (∀ back : HeldFrom, k.state = back.state → becomes (lost.enters c { k with
      state := .held, strideTimer := none, restartTimer := none,
      run := { k.run with heldFrom := some back, holdCause := some .consoleLost } })) ∧
    (k.state = .window ∨ k.state = .awarding →
      (k.run.pendingHold = false → becomes { lost with clocks := s.part.clocks.upd c (fun x =>
        { x with run := { x.run with pendingHold := true, holdCause := some .consoleLost } }) }) ∧
      (k.run.pendingHold = true → becomes lost)) ∧
    (k.state = .idle ∨ k.state = .ready ∨ k.state = .held → becomes lost)

/-- R130, R159, R160: the frame the free transmitter sends: a pending flow marker, else a pending KEEP, else the urgent or the bulk head by
the weight, else none; each is counted and restarts the keep timer, and a message carries a pending gap mark. A bulk message sent on the
SETTLEMENT link makes room for the next messages of the invoice being sent. The record of the last frame sent is the model's own (log 24). -/
def Obligations.FrameSentChoice : Prop :=
  ∀ (l : LinkId) (s : State), s.pinLow = false →
    let k := s.part.links.get l
    let marker (x : Link) (f : SentFrame) : Link :=
      { x with keepTimer := some (s.part.now + 100), lastSent := some f,
               stats := { x.stats with framesOut := count32 x.stats.framesOut } }
    let message (x : Link) (m : OutMsg) : Link :=
      { x with keepTimer := some (s.part.now + 100), lastSent := some (.message k.gapPending m), gapPending := false,
               stats := { x.stats with
                 framesOut := count32 x.stats.framesOut,
                 gapMarks := if k.gapPending then count32 x.stats.gapMarks else x.stats.gapMarks } }
    let becomes (x : Link) : State := s.after { s.part with links := s.part.links.upd l (fun _ => x) }
    let open_ := k.flowPending = none ∧ k.keepPending = false ∧ k.peerWait = false ∧ k.state.serving = true
    (k.state = .down → exec (.frameSent l) s = .next s) ∧
    (∀ m, k.state ≠ .down → k.flowPending = some m →
      exec (.frameSent l) s = .next (becomes (marker { k with flowPending := none } (.flow m)))) ∧
    (k.state ≠ .down → k.flowPending = none → k.keepPending = true →
      exec (.frameSent l) s = .next (becomes (marker { k with keepPending := false } .keep))) ∧
    (k.flowPending = none → k.keepPending = false → k.peerWait = true ∨ k.state.serving = false →
      exec (.frameSent l) s = .next s) ∧
    (open_ → k.urgent = [] → k.bulk = [] → exec (.frameSent l) s = .next s) ∧
    (∀ m us, open_ → k.urgent = m :: us → k.bulk = [] ∨ k.weight.bound = none ∨ (∃ w, k.weight.bound = some w ∧ k.service < w) →
      exec (.frameSent l) s = .next (becomes (message { k with
        urgent := us, service := match k.weight.bound with | none => k.service | some w => min (k.service + 1) w } m))) ∧
    (∀ m bs, open_ → k.bulk = m :: bs → k.urgent = [] ∨ (∃ w, k.weight.bound = some w ∧ w ≤ k.service) →
      let sent := message { k with bulk := bs, service := match k.weight.bound with | none => k.service | some _ => 0 } m
      (s.part.serves l .settlement = false ∨ s.part.account.cursor = none →
        exec (.frameSent l) s = .next (becomes sent)) ∧
      (∀ cur v, s.part.linkOf .settlement = some l → s.part.account.cursor = some cur → s.part.account.InvoicesOk →
        s.part.account.invoice cur.invoice = some v →
        let next := s.part.account.sendsOn (32 - bs.length) cur v
        exec (.frameSent l) s = .next (s.after { s.part with
          links := s.part.links.upd l (fun _ => { sent with bulk := bs ++ next.2 }), account := next.1 })))

/-- R154, R156, R173: a message of no known kind, one longer than 160 bytes, one not permitted to the link's state or role, and
one whose format is malformed are each refused, with no other effect. Which form and TAG each refusal has: R154. The model's reading is in
these: a malformed TROLLEY ENTRY is answered REFUSED as other kinds are (log 14); a message whose qualifiers cannot be read is judged by
state and role first (log 15); of two TAGs the one echoed is left open (log 16); the fields of a malformed BID's refusal (log 19); the desk
of a malformed LOGIN's (log 43). -/
def Obligations.MessagesJudgedByFormAndRole : Prop :=
  ∀ (l : LinkId) (raw : List Byte) (s : State), s.pinLow = false → (s.part.links.get l).state.serving = true →
    (s.part.links.get l).inbound.head? = some raw →
    let m := parse raw
    let answers (c : Instr) (tag : Option Nat) (b : OutBody) : Prop :=
      exec c s = .next (s.after { s.part with links := s.part.answeredBy l ⟨tag, b⟩ })
    (kindOf m.code = none → raw.length ≤ 160 → answers (.unknownKind l) m.tag (.refused (some m.code) .malformed none)) ∧
    (kindOf m.code = none → 160 < raw.length → answers (.unknownKind l) none (.refused (some m.code) .malformed none)) ∧
    (∀ k, kindOf m.code = some k →
      (160 < raw.length → answers (k.command l) none (.refused (some m.code) .malformed none)) ∧
      (raw.length ≤ 160 →
        ((s.part.links.get l).state = .waiting → k ≠ .announce → answers (k.command l) m.tag (.refused none .notRole none)) ∧
        ((s.part.links.get l).state = .up → k = .announce → answers (k.command l) m.tag (.announceRefused .already)) ∧
        (∀ r, (s.part.links.get l).state = .up → (s.part.links.get l).role = some r → k ≠ .announce →
          permitted r k = false → answers (k.command l) m.tag (.refused none .notRole none)) ∧
        (∀ r, (s.part.links.get l).state = .up → (s.part.links.get l).role = some r → permitted r k = true →
          m.verdict k = false → k ≠ .bid → k ≠ .login → answers (k.command l) m.tag (.refused none .malformed none)) ∧
        ((s.part.links.get l).state = .up → (s.part.links.get l).role = some .deskGroup → k = .login → m.verdict k = false →
          answers (k.command l) m.tag (.refused none .malformed (deskGiven m))) ∧
        ((s.part.links.get l).state = .up → (s.part.links.get l).role = some .deskGroup → k = .bid → m.verdict k = false →
          answers (k.command l) m.tag (.bidRefused (deskGiven m) ⟨none, none, .malformed, none, none⟩))))

/-- R21, R41, R104, R118, R134, R144, R157, R158: an ANNOUNCE that passes every check takes the link UP in its role; ANNOUNCE ACCEPTED is
its first message, and the units' messages follow: DEPART ORDER of each DEPARTING trolley in clock order, CLOCK STATE (its lot units: log
39) and STORE_LOW, invoices, the clocks' last frames in clock order. The units install what the claim brings. One refused has its cause in
the order of the checks, and the link stays WAITING. One malformed by its format is answered REFUSED, the model's reading of R154 (log 14). -/
def Obligations.AnnounceTaken : Prop :=
  (∀ (l : LinkId) (raw : List Byte) (k : Claim) (w : Weight) (s : State), s.pinLow = false →
     (s.part.links.get l).state = .waiting → (s.part.links.get l).inbound.head? = some raw → raw.length ≤ 160 →
     kindOf (parse raw).code = some .announce → (parse raw).verdict .announce = true →
     readClaim (parse raw).body = some k → weightOf (fieldAt (parse raw).body 1 1) = some w → s.part.claimProblem l k = none →
     let admitted : Link :=
       ({ (s.part.links.get l).leave with state := .up, role := some k.role, weight := w, service := 0 } : Link).putUrgent
         ⟨(parse raw).tag, .announceAccepted l k.role w k.age⟩
     let up : Part := { s.part with links := s.part.links.upd l (fun _ => admitted) }
     let placed (bs : List OutBody) : Part := { s.part with
       links := s.part.links.upd l (fun _ => bs.foldl (fun y b => y.putUrgent ⟨none, b⟩) admitted) }
     let becomes (p : Part) : Prop := exec (.announce l) s = .next (s.after p)
     match k with
     | .logistics => becomes (placed (clockIds.filterMap (fun c =>
         match (s.part.supply.slots.get c).bind (fun n => (s.part.trolley n).map (fun t => (n, t))) with
         | none => none
         | some (n, t) => if t.state = .departing then some (.departOrder t.clock n t.picks) else none)))
     | .console c =>
       let u := s.part.clocks.get c
       let lot := u.run.lot.bind s.part.lot
       becomes (placed (.clockState
           { clock := c, state := u.state, run := u.run.run, lot := u.run.lot.getD 0,
             remaining := (lot.map Lot.remaining).getD 0, sold := (lot.map Lot.sold).getD 0, position := u.run.position,
             price := u.run.price, dwell := u.run.dwell, pendingHold := u.run.pendingHold,
             pendingWithdrawal := u.run.pendingWithdrawal, holdCause := u.run.holdCause } ::
         if s.part.account.storeLow then [.storeLow (4096 - s.part.account.lines.length)] else []))
     | .settlement => s.part.account.InvoicesOk → becomes up.startsSending
     | .display set => s.part.DisplayOk → becomes { s.part with
         links := s.part.links.upd l (fun _ => clockIds.foldl (fun y c =>
           if set.get c then
             let f := (s.part.displayClock c).frame
             if y.bulk.any (fun m => m.isFrameOf f.clock) then
               { y with bulk := y.bulk.map (fun m => if m.isFrameOf f.clock then ⟨none, .clockFrame f⟩ else m) }
             else y.putBulk ⟨none, .clockFrame f⟩
           else y) admitted),
         display := { s.part.display with clockSets := s.part.display.clockSets.upd l (fun _ => some set) } }
     | .supervision set => becomes { up with display := { s.part.display with mirror := some set } }
     | .deskGroup map clock aging age => becomes { up with
         account := { s.part.account with groups := s.part.account.groups.upd l (fun _ =>
           some { map := map, defaultClock := (clockOf clock).getD .c1, aging := aging, age := deskAge age }) },
         display := { s.part.display with
           sets := s.part.display.sets.upd l (fun _ => some (PerClock.const ⟨0, 0, false⟩)) } }) ∧
  (∀ (l : LinkId) (raw : List Byte) (s : State), s.pinLow = false → (s.part.links.get l).state = .waiting →
     (s.part.links.get l).inbound.head? = some raw → raw.length ≤ 160 → kindOf (parse raw).code = some .announce →
     let m := parse raw
     let answers (b : OutBody) : Prop := exec (.announce l) s = .next (s.after { s.part with links := s.part.answered l raw b })
     (m.verdict .announce = false → answers (.refused none .malformed none)) ∧
     (m.verdict .announce = true → readClaim m.body = none ∨ weightOf (fieldAt m.body 1 1) = none →
       answers (.announceRefused .malformed)) ∧
     (∀ k w, m.verdict .announce = true → readClaim m.body = some k → weightOf (fieldAt m.body 1 1) = some w →
       (k.role.limited = true → (∃ n, n ≠ l ∧ s.part.serves n k.role = true) → answers (.announceRefused .roleTaken)) ∧
       (∀ map clock aging age, k = .deskGroup map clock aging age →
         ¬ (1 ≤ clock ∧ clock ≤ 4) ∨ selfOverlap map = true ∨ map = [] ∨ 4 < map.length ∨
           (∃ r ∈ map, r.size = 0 ∨ 512 < r.size ∨ 511 < r.base) → answers (.announceRefused .malformed)) ∧
       (∀ map clock aging age n g, k = .deskGroup map clock aging age → 1 ≤ clock → clock ≤ 4 → selfOverlap map = false →
         mapOk map = true → n ≠ l → s.part.account.groups.get n = some g → mapsMeet map g.map = true →
         answers (.announceRefused .overlap))))

/-- R171: STATISTICS REQUEST reads the counters of the link named, clears them when asked, and places STATISTICS on the bulk queue of
its own link; a link number above 7 is refused MALFORMED. -/
def Obligations.StatisticsRead : Prop :=
  ∀ (l : LinkId) (raw : List Byte) (s : State), s.Takes l .supervision .statisticsRequest raw →
    let m := parse raw
    let clear := decide (fieldAt m.body 1 1 ≠ 0)
    (∀ n, linkNumber n = fieldAt m.body 0 1 →
      let k := s.part.links.get n
      exec (.statisticsRequest l) s = .next (s.after { s.part with
        links := (((s.part.unqueued l).upd n (fun x => if clear then { x with stats := ⟨0, 0, 0, 0, 0, 0, 0⟩ } else x)).upd l
          (fun x => x.putBulk ⟨m.tag, .statistics n k.state k.role k.stats clear⟩)) })) ∧
    (7 < fieldAt m.body 0 1 → exec (.statisticsRequest l) s = .next (s.refusing l raw .malformed))

/-! ### Trolley trains and supply queues -/

/-- R7: TRAIN HEADER clears the discard id, refuses a FILLING train INCOMPLETE, and begins its own train or is refused. -/
def Obligations.TrainHeaderTaken : Prop :=
  ∀ (l : LinkId) (raw : List Byte) (s : State), s.Takes l .logistics .trainHeader raw →
    let m := parse raw
    let cleared : Supply := { s.part.supply with discard := none }
    let fresh (c : ClockId) (n : Nat) : Train :=
      { clock := c, stated := n, taken := 0, state := .filling, live := 0, tag := m.tag, clamped := 0 }
    (readTrainHeader m.body = none → exec (.trainHeader l) s = .next (s.refusing l raw .malformed)) ∧
    (∀ id c n, readTrainHeader m.body = some (id, c, n) → s.part.supply.filling = none →
      (s.part.supply.trains.has id = true → exec (.trainHeader l) s = .next (s.after { s.part with
        links := s.part.answered l raw (.refused none .malformed none), supply := cleared })) ∧
      (s.part.supply.trains.has id = false → 24 ≤ s.part.supply.trains.length →
        exec (.trainHeader l) s = .next (s.after { s.part with
          links := s.part.answered l raw (.trainRefused id .noRoom),
          supply := { s.part.supply with discard := some id } })) ∧
      (s.part.supply.trains.has id = false → s.part.supply.trains.length < 24 →
        exec (.trainHeader l) s = .next (s.after { s.part with
          links := s.part.unqueued l,
          supply := { cleared with trains := s.part.supply.trains.put id (fresh c n) } }))) ∧
    (∀ id c n old t, readTrainHeader m.body = some (id, c, n) → s.part.supply.filling = some (old, t) →
      (s.part.supply.trains.del old).has id = false → (s.part.supply.trains.del old).length < 24 →
      exec (.trainHeader l) s = .next (s.after { s.part with
        links := s.part.answeredBy l ⟨t.tag, .trainRefused old .incomplete⟩,
        supply := { cleared with
          trains := (s.part.supply.trains.del old).put id (fresh c n),
          trolleys := s.part.supply.trolleys.keep (fun x => decide (x.state ≠ .staged)),
          lots := s.part.supply.lots.keep (fun x => decide (x.state ≠ .staged)) } }))

/-- R8, R9, R68: the checks of an entry with the cause of the first that fails; the lot record that an entry stages; an entry of the FILLING
train that passes every check is staged, and when more entries are due nothing else happens. -/
def Obligations.TrolleyEntryTaken : Prop :=
  (∀ (v : Supply) (t : Train) (trolley count : Nat) (es : List LotEntry),
     let bad := trolley = 0 ∨ count < 1 ∨ 4 < count ∨ ∃ e ∈ es, e.lot = 0 ∨ 15 < e.cls ∨ e.units < 1 ∨ 9999 < e.units ∨
       e.stems < 1 ∨ 1000 < e.stems ∨ e.minPrice < 1 ∨ 9999999 < e.minPrice
     let known := (v.trolleys.find trolley).isSome = true ∨ (∃ e ∈ es, (v.lots.find e.lot).isSome = true) ∨
       ¬ (es.map LotEntry.lot).Nodup
     let full := 160 ≤ v.trolleys.length ∨ 384 < v.lots.length + es.length ∨
       128 < (v.queues.get t.clock).length + (v.lots.filter (fun x => decide (x.2.state = .staged))).length + es.length
     (bad ∨ known → entryProblem v t trolley count es = some .malformed) ∧
     (¬ bad → ¬ known → full → entryProblem v t trolley count es = some .noRoom) ∧
     (¬ bad → ¬ known → ¬ full → entryProblem v t trolley count es = none)) ∧
  (∀ (e : LotEntry) (trolley : Nat) (c : ClockId), e.ok = true →
     e.staged trolley c =
       { trolley := trolley, clock := c, grower := e.grower, product := e.product, cls := e.cls, announced := e.units,
         stems := e.stems,
         minPurchase := if e.minPurchase = 0 then 1 else if e.units < e.minPurchase then e.units else e.minPurchase,
         minPrice := e.minPrice,
         suggested := if e.suggested < e.minPrice then e.minPrice else if 9999999 < e.suggested then 9999999 else e.suggested,
         remaining := e.units, sold := 0, state := .staged, ceiling := none }) ∧
  (∀ (l : LinkId) (raw : List Byte) (id : Nat) (t : Train) (s : State), s.Takes l .logistics .trolleyEntry raw →
     s.part.supply.filling = some (id, t) → fieldAt (parse raw).body 0 2 = id →
     let trolley := fieldAt (parse raw).body 2 2
     let es := readLotEntries (parse raw).body
     entryProblem s.part.supply t trolley (fieldAt (parse raw).body 4 1) es = none → t.taken + 1 ≠ t.stated →
     exec (.trolleyEntry l) s = .next (s.after { s.part with
       links := s.part.unqueued l,
       supply := { s.part.supply with
         trains := s.part.supply.trains.put id { t with
           taken := t.taken + 1, clamped := t.clamped + (es.filter (fun e => e.clamps)).length },
         trolleys := s.part.supply.trolleys.put trolley { train := id, clock := t.clock, place := t.taken + 1,
                                                          lots := es.map LotEntry.lot, state := .staged, picks := [] },
         lots := es.foldl (fun ls e => ls.put e.lot (e.staged trolley t.clock)) s.part.supply.lots } }))

/-- R9: the last entry of a train admits it: its records are ANNOUNCED, its lots stand behind the queue of its clock in entry order, TRAIN
ACCEPTED echoes the TAG of the header, and the Display Unit is told when the clock's next lot changes. -/
def Obligations.TrainAdmitted : Prop :=
  ∀ (l : LinkId) (raw : List Byte) (id : Nat) (t : Train) (s : State), s.Takes l .logistics .trolleyEntry raw →
    s.part.supply.filling = some (id, t) → fieldAt (parse raw).body 0 2 = id → s.part.TablesOk → s.part.SupplyOk →
    let trolley := fieldAt (parse raw).body 2 2
    let es := readLotEntries (parse raw).body
    entryProblem s.part.supply t trolley (fieldAt (parse raw).body 4 1) es = none → t.taken + 1 = t.stated →
    let lots := s.part.supply.lotsOf id ++ es.map LotEntry.lot
    let clamped := t.clamped + (es.filter (fun e => e.clamps)).length
    let record : Trolley :=
      { train := id, clock := t.clock, place := t.stated, lots := es.map LotEntry.lot, state := .announced, picks := [] }
    let v : Supply := { s.part.supply with
      trains := s.part.supply.trains.put id { t with
        taken := t.stated, clamped := clamped, state := .admitted, live := t.stated },
      trolleys := (s.part.supply.trolleys.mapAll (fun x =>
        if x.state = .staged then { x with state := .announced } else x)).put trolley record,
      lots := es.foldl (fun ls e => ls.put e.lot { e.staged trolley t.clock with state := .announced })
        (s.part.supply.lots.mapAll (fun x => if x.state = .staged then { x with state := .announced } else x)),
      queues := s.part.supply.queues.upd t.clock (fun q => q ++ lots) }
    exec (.trolleyEntry l) s = .next (s.after { s.part with
      links := s.part.answeredBy l ⟨t.tag, .trainAccepted id t.clock t.stated lots.length clamped⟩, supply := v,
      channels := s.part.channels.upd t.clock (fun h =>
        if v.nextLot t.clock = s.part.supply.nextLot t.clock then h
        else { h with supplyToDisplay := h.supplyToDisplay ++ [⟨v.nextLot t.clock, false⟩] }) })

/-- R8, R10, R11: an entry that fails a check, or names another train than the FILLING one, refuses the whole train; with no train
FILLING it is discarded or refused MALFORMED. That it is discarded also where a value of it is out of range is the model's reading of R11
against R174 (log 51). -/
def Obligations.TrainRefusedWhole : Prop :=
  ∀ (l : LinkId) (raw : List Byte) (s : State), s.Takes l .logistics .trolleyEntry raw →
    let m := parse raw
    let whole (id : Nat) (t : Train) (cause : Cause) : State := s.after { s.part with
      links := s.part.answeredBy l ⟨t.tag, .trainRefused id cause⟩,
      supply := { s.part.supply with
        trains := s.part.supply.trains.del id,
        trolleys := s.part.supply.trolleys.keep (fun x => decide (x.state ≠ .staged)),
        lots := s.part.supply.lots.keep (fun x => decide (x.state ≠ .staged)), discard := some id } }
    (∀ id t cause, s.part.supply.filling = some (id, t) → fieldAt m.body 0 2 = id →
      entryProblem s.part.supply t (fieldAt m.body 2 2) (fieldAt m.body 4 1) (readLotEntries m.body) = some cause →
      exec (.trolleyEntry l) s = .next (whole id t cause)) ∧
    (∀ id t, s.part.supply.filling = some (id, t) → fieldAt m.body 0 2 ≠ id →
      exec (.trolleyEntry l) s = .next (whole id t .malformed)) ∧
    (s.part.supply.filling = none → s.part.supply.discard = some (fieldAt m.body 0 2) →
      exec (.trolleyEntry l) s = .next (s.after { s.part with links := s.part.unqueued l })) ∧
    (s.part.supply.filling = none → s.part.supply.discard ≠ some (fieldAt m.body 0 2) →
      exec (.trolleyEntry l) s = .next (s.refusing l raw .malformed))

/-- R13, R14, R19: the checks of TROLLEY ARRIVED in order, each with its cause, nothing changed; an arrival that passes them takes the slot.
A trolley with lots not done has them brought to the head of the queue, with SEQUENCE NOTICE when another lot headed it, and presented, and
the clock is told the head. One with every lot done departs at once with its DEPART ORDER, and the Display Unit is not told (log 25). That
the values of R174 are judged before those checks (log 52) and that ACK comes last (log 13) are the model's choices. -/
def Obligations.TrolleyArrivedTaken : Prop :=
  (∀ (l : LinkId) (raw : List Byte) (s : State), s.Takes l .logistics .trolleyArrived raw →
     let id := fieldAt (parse raw).body 0 2
     let place := fieldAt (parse raw).body 2 1
     let refused (cause : Cause) : Prop := exec (.trolleyArrived l) s = .next (s.refusing l raw cause)
     (id = 0 ∨ place < 1 ∨ 4 < place → refused .malformed) ∧
     (id ≠ 0 → ∀ c, clockOf place = some c →
       (s.part.trolley id = none → refused .unknownTrolley) ∧
       (∀ t, s.part.trolley id = some t →
         (t.state = .staged → refused .unknownTrolley) ∧
         (t.state ≠ .staged → t.clock ≠ c → refused .wrongClock) ∧
         (t.state = .presented ∨ t.state = .departing → t.clock = c → refused .busy) ∧
         (t.state = .announced → t.clock = c → (s.part.supply.slots.get c).isSome = true → refused .occupied)))) ∧
  (∀ (l : LinkId) (raw : List Byte) (c : ClockId) (t : Trolley) (s : State), s.Takes l .logistics .trolleyArrived raw →
     let id := fieldAt (parse raw).body 0 2
     id ≠ 0 → clockOf (fieldAt (parse raw).body 2 1) = some c → s.part.trolley id = some t → t.state = .announced →
     t.clock = c → s.part.supply.slots.get c = none →
     let queue := s.part.supply.queues.get c
     let own := queue.filter (fun i => t.lots.contains i)
     let others := queue.filter (fun i => !t.lots.contains i)
     let moved : Bool := match queue.head? with | none => false | some h => !t.lots.contains h
     let passed : Nat := ((queue.head?.bind s.part.lot).map Lot.trolley).getD 0
     let arrived (st : TrolleyState) : Supply := { s.part.supply with
       slots := s.part.supply.slots.upd c (fun _ => some id),
       trolleys := s.part.supply.trolleys.modify id (fun x => { x with state := st }) }
     let acked (links : PerLink Link) : PerLink Link :=
       links.upd l (fun k => k.putUrgent ⟨(parse raw).tag, .ack .plain⟩)
     (s.part.notDone t.lots = [] → exec (.trolleyArrived l) s = .next (s.after { s.part with
       links := acked (s.part.roleTold (s.part.unqueued l) .logistics [.departOrder c id t.picks]),
       supply := arrived .departing })) ∧
     (s.part.notDone t.lots ≠ [] →
       let v : Supply := { arrived .presented with
         lots := s.part.supply.lots.mapAll (fun r =>
           if r.trolley = id ∧ r.state = .announced then { r with state := .presented } else r),
         queues := s.part.supply.queues.upd c (fun q => if moved then own ++ others else q) }
       exec (.trolleyArrived l) s = .next (s.after { s.part with
         links := acked (s.part.consoleTold (s.part.unqueued l) c
           (if moved then [.sequenceNotice c id own.length passed] else [])),
         supply := v,
         channels := s.part.channels.upd c (fun h => { h with
           supplyToClock := h.supplyToClock ++ [v.headAnswer c],
           supplyToDisplay := h.supplyToDisplay ++ [⟨v.nextLot c, false⟩] }) })))

/-- R16, R17: the withdrawals of logistics, with their refusals. That lot id 0 is MALFORMED before UNKNOWN_LOT (log 52) and that a train's
lots are taken in entry order (log 21) are the model's choices. -/
def Obligations.WithdrawnByLogistics : Prop :=
  (∀ (l : LinkId) (raw : List Byte) (s : State), s.Takes l .logistics .lotWithdraw raw →
    let id := fieldAt (parse raw).body 0 4
    (id = 0 → exec (.lotWithdraw l) s = .next (s.refusing l raw .malformed)) ∧
    (id ≠ 0 → s.part.lot id = none → exec (.lotWithdraw l) s = .next (s.refusing l raw .unknownLot)) ∧
    (∀ t, id ≠ 0 → s.part.lot id = some t →
      (t.state = .staged → exec (.lotWithdraw l) s = .next (s.refusing l raw .unknownLot)) ∧
      (t.state ≠ .staged → t.state ≠ .announced → exec (.lotWithdraw l) s = .next (s.refusing l raw .busy)) ∧
      (t.state = .announced → exec (.lotWithdraw l) s = .next (s.after
        { s.part.lotWithdrawn id t with links := s.part.answered l raw (.ack .plain) })))) ∧
  (∀ (l : LinkId) (raw : List Byte) (s : State), s.Takes l .logistics .trainWithdraw raw →
    let id := fieldAt (parse raw).body 0 2
    (s.part.supply.trains.find id = none → exec (.trainWithdraw l) s = .next (s.refusing l raw .unknownTrain)) ∧
    (∀ t, s.part.supply.trains.find id = some t → t.state = .filling →
      exec (.trainWithdraw l) s = .next (s.after { s.part with
        links := s.part.answered l raw (.ack .plain),
        supply := { s.part.supply with
          trains := s.part.supply.trains.del id,
          trolleys := s.part.supply.trolleys.keep (fun x => decide (x.state ≠ .staged)),
          lots := s.part.supply.lots.keep (fun x => decide (x.state ≠ .staged)), discard := some id } })) ∧
    (∀ t, s.part.supply.trains.find id = some t → t.state = .admitted →
      let lots := s.part.supply.lotsOf id
      let count := (lots.filter (fun i => match s.part.lot i with
        | some x => decide (x.state = .announced) | none => false)).length
      let withdrawn : Part := lots.foldl (fun p i =>
        match p.lot i with
        | none => p
        | some x => if x.state = .announced then p.lotWithdrawn i x else p) s.part
      exec (.trainWithdraw l) s = .next (s.after
        { withdrawn with links := s.part.answered l raw (.ack (.lotsWithdrawn count)) }) ∧
      withdrawn = { s.part with supply := withdrawn.supply, channels := withdrawn.channels } ∧
      (∀ i x, s.part.lot i = some x → withdrawn.lot i = some
        (if i ∈ lots ∧ x.state = .announced then { x with state := .withdrawn, remaining := x.announced, sold := 0 } else x)) ∧
      (∀ i x, s.part.lot i = some x → i ∈ lots → x.state = .announced → i ∉ withdrawn.supply.queues.get x.clock)))

/-- R20, R22: SLOT QUERY is answered with SLOT STATUS (of an empty slot: log 40), followed by DEPART ORDER when the slot's trolley is
DEPARTING, without the query's TAG, the model's choice (log 45). A lot counts as not done until its done report is taken: with a lot's
report in flight SLOT STATUS shows at least one lot not done. TROLLEY DEPARTED with its refusals, and the records a DEPARTING trolley leaves free. -/
def Obligations.SlotQueriedAndLeft : Prop :=
  (∀ (l : LinkId) (raw : List Byte) (s : State), s.Takes l .logistics .slotQuery raw →
     let place := fieldAt (parse raw).body 0 1
     (place < 1 ∨ 4 < place → exec (.slotQuery l) s = .next (s.refusing l raw .malformed)) ∧
     (∀ c, clockNumber c = place →
       let queued := (s.part.supply.queues.get c).length
       (s.part.supply.slots.get c = none → exec (.slotQuery l) s = .next (s.after { s.part with
         links := s.part.answered l raw (.slotStatus c 0 none 0 queued) })) ∧
       (∀ id t, s.part.supply.slots.get c = some id → s.part.trolley id = some t →
         let inFlight := (s.part.channels.get c).clockToSupply
         let left := (t.lots.filter (fun i => s.part.isOpen i || decide (i ∈ inFlight))).length
         exec (.slotQuery l) s = .next (s.after { s.part with
           links := s.part.roleTold (s.part.answered l raw (.slotStatus c id (some t.state) left queued)) .logistics
             (if t.state = .departing then [.departOrder t.clock id t.picks] else []) }) ∧
         ((∃ i ∈ t.lots, i ∈ inFlight) → 1 ≤ left)))) ∧
  (∀ (l : LinkId) (raw : List Byte) (s : State), s.Takes l .logistics .trolleyDeparted raw →
     let id := fieldAt (parse raw).body 0 2
     (s.part.trolley id = none → exec (.trolleyDeparted l) s = .next (s.refusing l raw .unknownTrolley)) ∧
     (∀ t, s.part.trolley id = some t →
       (t.state = .staged → exec (.trolleyDeparted l) s = .next (s.refusing l raw .unknownTrolley)) ∧
       (t.state = .announced ∨ t.state = .presented → exec (.trolleyDeparted l) s = .next (s.refusing l raw .busy)) ∧
       (t.state = .departing →
         ∃ v : Supply, exec (.trolleyDeparted l) s = .next (s.after { s.part with
           links := s.part.answered l raw (.ack .plain), supply := v,
           channels := s.part.channels.upd t.clock (fun h =>
             { h with supplyToClock := h.supplyToClock ++ [v.headAnswer t.clock] }) }) ∧
         v.slots = s.part.supply.slots.upd t.clock (fun _ => none) ∧ v.trolleys = s.part.supply.trolleys.del id ∧
         v.queues = s.part.supply.queues ∧ v.discard = s.part.supply.discard ∧
         (∀ i, v.lots.find i = if i ∈ t.lots then none else s.part.supply.lots.find i) ∧
         (∀ i, i ≠ t.train → v.trains.find i = s.part.supply.trains.find i) ∧
         (∀ r, s.part.supply.trains.find t.train = some r →
           v.trains.find t.train = if r.live ≤ 1 then none else some { r with live := r.live - 1 }))))

/-- R15, R19: a lot done report takes the lot from its queue, makes the slot's trolley DEPARTING when its last lot is done, with its DEPART
ORDER, and is answered with the head of the queue. With no report in flight nothing happens, the model's choice (log 2). -/
def Obligations.LotDoneReportTaken : Prop :=
  ∀ (c : ClockId) (s : State), s.pinLow = false →
    ((s.part.channels.get c).clockToSupply = [] → exec (.lotDoneReport c) s = .next s) ∧
    (∀ lot rest, (s.part.channels.get c).clockToSupply = lot :: rest →
      let left : Supply := { s.part.supply with
        queues := s.part.supply.queues.upd c (fun q => q.filter (fun i => decide (i ≠ lot))) }
      let becomes (v : Supply) (orders : List OutBody) : Prop := exec (.lotDoneReport c) s = .next (s.after { s.part with
        links := s.part.roleTold s.part.links .logistics orders, supply := v,
        channels := s.part.channels.upd c (fun h => { h with
          clockToSupply := rest, supplyToClock := h.supplyToClock ++ [v.headAnswer c],
          supplyToDisplay := h.supplyToDisplay ++ [⟨v.nextLot c, false⟩] }) })
      (s.part.supply.slots.get c = none → becomes left []) ∧
      (∀ i t, s.part.supply.slots.get c = some i → s.part.trolley i = some t →
        (t.state = .presented → s.part.notDone t.lots = [] →
          becomes { left with trolleys := s.part.supply.trolleys.modify i (fun x => { x with state := .departing }) }
            [.departOrder t.clock i t.picks]) ∧
        (t.state ≠ .presented ∨ s.part.notDone t.lots ≠ [] → becomes left [])))

/-! ### The clock run -/

/-- R28, R93: what the Supply Unit says of the head lot: in IDLE a presented head lot makes the clock READY and ends the orders that hold
until the product changes; a lot withdrawn is told to the console, with its units (log 22). In every other state, and at "no presented
head", nothing more than the hand-over goes. -/
def Obligations.HeadLotReported : Prop :=
  ∀ (c : ClockId) (rest : List ToClockFromSupply) (s : State), s.pinLow = false →
    let k := s.part.clocks.get c
    let taken : Part := { s.part with channels := s.part.channels.upd c (fun h => { h with supplyToClock := rest }) }
    ((s.part.channels.get c).supplyToClock = .noPresentedHead :: rest →
      exec (.noPresentedHead c) s = .next (s.after taken)) ∧
    (∀ lot units, (s.part.channels.get c).supplyToClock = .lotWithdrawn lot units :: rest →
      (k.state = .idle → exec (.lotWithdrawn c) s = .next (s.after { taken with
        links := s.part.consoleTold s.part.links c [.lotClosed ⟨lot, .withdrawn, .logistics, units, 0, none⟩] })) ∧
      (k.state ≠ .idle → exec (.lotWithdrawn c) s = .next (s.after taken))) ∧
    (∀ lot t, (s.part.channels.get c).supplyToClock = .headLotPresented lot :: rest → s.part.lot lot = some t →
      (k.state ≠ .idle → exec (.headLotPresented c) s = .next (s.after taken)) ∧
      (k.state = .idle →
        let ends (o : Order) : Bool := o.untilChange && decide (o.product ≠ t.product)
        let ready := taken.enters c { k with
          state := .ready, orders := k.ordersLeft ends,
          run := { k.run with lot := some lot, minPrice := some t.minPrice, lastAward := none, position := 0, price := 0,
                              dwell := 0 } }
        exec (.headLotPresented c) s = .next (s.after { ready with
          channels := ready.channels.upd c (fun h => { h with
            clockToAccount := h.clockToAccount ++
              (k.orders.filter ends).map (fun o => o.ended c .changed o.count o.target none) }) })))

/-- R24: CLOCK CONFIGURE is BUSY but in IDLE, READY and HELD. There each parameter present is clamped to its range and stored,
CONFIGURED answers, and a changed frame divisor is told to the Display Unit. -/
def Obligations.ClockConfigured : Prop :=
  ∀ (l : LinkId) (c : ClockId) (raw : List Byte) (s : State), s.Takes l (.console c) .clockConfigure raw →
    let k := s.part.clocks.get c
    let b := (parse raw).body
    let value (i low high old : Nat) : Nat :=
      if (fieldAt b 0 1).testBit i then max low (min high (fieldAt b (1 + 2 * i) 2)) else old
    let clamped (i low high : Nat) : Bool :=
      (fieldAt b 0 1).testBit i && decide (fieldAt b (1 + 2 * i) 2 < low ∨ high < fieldAt b (1 + 2 * i) 2)
    let config : ClockConfig :=
      { stridePeriod := value 0 10 250 k.config.stridePeriod, priceStep := value 1 1 65535 k.config.priceStep,
        stopWindow := value 2 0 120 k.config.stopWindow, lagLimit := value 3 0 15 k.config.lagLimit,
        floorDwell := value 4 1 255 k.config.floorDwell, restartMarkup := value 5 0 50 k.config.restartMarkup,
        restartDelay := value 6 200 5000 k.config.restartDelay, frameDivisor := value 7 1 8 k.config.frameDivisor }
    (k.state ≠ .idle → k.state ≠ .ready → k.state ≠ .held → exec (.clockConfigure l) s = .next (s.refusing l raw .busy)) ∧
    (k.state = .idle ∨ k.state = .ready ∨ k.state = .held →
      ∃ items, exec (.clockConfigure l) s = .next (s.after { s.part with
          links := s.part.answered l raw (.configured config items),
          clocks := s.part.clocks.upd c (fun x => { x with config := config }),
          channels := s.part.channels.upd c (fun h =>
            if config.frameDivisor = k.config.frameDivisor then h
            else { h with clockToDisplay := h.clockToDisplay ++ [.divisor (s.part.report c) config.frameDivisor] }) }) ∧
        (Param.stridePeriod ∈ items ↔ clamped 0 10 250 = true) ∧ (Param.priceStep ∈ items ↔ clamped 1 1 65535 = true) ∧
        (Param.stopWindow ∈ items ↔ clamped 2 0 120 = true) ∧ (Param.lagLimit ∈ items ↔ clamped 3 0 15 = true) ∧
        (Param.floorDwell ∈ items ↔ clamped 4 1 255 = true) ∧ (Param.restartMarkup ∈ items ↔ clamped 5 0 50 = true) ∧
        (Param.restartDelay ∈ items ↔ clamped 6 200 5000 = true) ∧ (Param.frameDivisor ∈ items ↔ clamped 7 1 8 = true))

/-- R26, R30, R31, R36, R88: the refusals of START, and a run that starts, at START or at the end of the restart delay: the start price, the
new run number, the records and the state entered, and the offer of position 0 to the standing orders. A START without a price, and the
delay's end, differ in nothing (log 23); a START with a price past the top is MALFORMED whatever the clock state (log 52); RUN STARTED and
CLOCK STATE stand before what the offer sends (log 13); an order that fires is reported with the clock's run number and the offered position
(log 20), its report before that of a refusal made at once (log 50); BID REFUSED of a standing order's candidate carries the clock's run
number (log 41); the restart delay's end moves the time base on (log 3): the model's choices. -/
def Obligations.RunStarts : Prop :=
  ∀ (c : ClockId) (id n : Nat) (t : Lot) (tr : Trolley) (s : State),
    let k := s.part.clocks.get c
    let number := if k.run.run = 65535 then 1 else k.run.run + 1
    let started (start : Nat) (differs : Bool) : OutBody :=
      .runStarted c number id start differs (if k.run.minPrice = some start then .floor else .running)
    (∀ l raw, s.Takes l (.console c) .start raw →
      (9999999 < fieldAt (parse raw).body 0 4 → exec (.start l) s = .next (s.refusing l raw .malformed)) ∧
      (fieldAt (parse raw).body 0 4 ≤ 9999999 →
        let given := if fieldAt (parse raw).body 0 4 = 0 then none else some (fieldAt (parse raw).body 0 4)
        (k.state = .idle → exec (.start l) s = .next (s.refusing l raw .noLot)) ∧
        (k.state = .running ∨ k.state = .floor ∨ k.state = .window ∨ k.state = .awarding ∨ k.state = .held →
          exec (.start l) s = .next (s.refusing l raw .busy)) ∧
        (k.state = .ready → k.run.hallView ≠ .opened → exec (.start l) s = .next (s.refusing l raw .hallClosed)) ∧
        (∀ start, k.Ok → (k.state = .ready ∧ k.run.hallView = .opened) ∨ k.state = .restart → k.run.lot = some id →
          s.part.lot id = some t → s.part.supply.slots.get c = some n → s.part.trolley n = some tr →
          StartPriceIs t k.run.restartPrice given start →
          let answered : Part := { s.part with
            links := s.part.answered l raw
              (started start (match given with | none => false | some g => decide (start ≠ g))) }
          exec (.start l) s = .next (s.after ((answered.runStarts c id start).offers c id t tr.picks))))) ∧
    (∀ w start, s.pinLow = false → k.Ok → k.state = .restart → k.restartTimer = some w → k.run.lot = some id →
      s.part.lot id = some t → s.part.supply.slots.get c = some n → s.part.trolley n = some tr → t.ceiling.isSome = true →
      k.run.restartPrice = some start →
      let told : Part := { s.part with
        links := s.part.consoleTold s.part.links c [started start false], now := max s.part.now w }
      exec (.restartDelayEnd c) s = .next (s.after ((told.runStarts c id start).offers c id t tr.picks)))

/-- R32 to R34, R88: the end of a stride in RUNNING and in FLOOR: the lot is closed unsold, or the clock descends on and its new position is
offered to the standing orders. The time base moves on to the timer's end (log 3); LOT CLOSED stands behind CLOCK STATE (log 13); an order
that fires is reported with the clock's run number and the offered position (log 20), its report before that of a refusal made at once
(log 50); BID REFUSED of a standing order's candidate carries the clock's run number (log 41): the model's choices. -/
def Obligations.StrideEnds : Prop :=
  ∀ (c : ClockId) (id n w : Nat) (t : Lot) (tr : Trolley) (s : State), s.pinLow = false →
    let k := s.part.clocks.get c
    k.Ok → k.strideTimer = some w → k.run.lot = some id → s.part.lot id = some t →
    s.part.supply.slots.get c = some n → s.part.trolley n = some tr →
    let reached : Part := { s.part with now := max s.part.now w }
    let next := k.run.position + 1
    let price := k.run.priceOf next
    let ended : Prop := exec (.strideEnd c) s = .next (s.after (reached.lotEnds c id t .closedUnsold))
    let descends (st : ClockState) (price dwell : Nat) : Prop :=
      exec (.strideEnd c) s = .next (s.after ((reached.strides c st price dwell).offers c id t tr.picks))
    (k.state = .running → next = 65535 → ended) ∧
    (k.state = .running → next ≠ 65535 → descends (if k.run.minPrice = some price then .floor else .running) price 0) ∧
    (k.state = .floor → next = 65535 ∨ k.config.floorDwell ≤ k.run.dwell + 1 → ended) ∧
    (k.state = .floor → next ≠ 65535 → k.run.dwell + 1 < k.config.floorDwell →
      descends .floor k.run.price (k.run.dwell + 1))

/-- R52, R53, R88 to R90: an offered position, at a stride in RUNNING or FLOOR and at a run start. With no order that meets its conditions
nothing happens; the order of a blocked buyer has its mark set and does nothing else; one that fires opens the window with its candidate,
with no lag limit and its quantity clamped, and is reported (log 20). Of more than eight that fire, those behind the eighth are refused
OUTBID at once, each behind its report (log 50). A stop window of 0 ms ends behind the last. The time base moves on to the timer's end
(log 3); BID REFUSED of a standing order's candidate carries the clock's run number (log 41); RUN STARTED, that of the delay's end differing
in nothing (log 23), and CLOCK STATE of the run stand before what the offer sends (log 13): the model's choices. -/
def Obligations.OrderFires : Prop :=
  ∀ (c : ClockId) (id n : Nat) (t : Lot) (tr : Trolley) (s : State),
    let k := s.part.clocks.get c
    k.Ok → k.run.lot = some id → s.part.lot id = some t → s.part.supply.slots.get c = some n → s.part.trolley n = some tr →
    k.run.hallView = .opened →
    let meets (price : Nat) (o : Order) : Prop := o.product = t.product ∧ price ≤ o.limit
    let offered (answer : State → Prop) (p : Part) : Prop :=
      let k := p.clocks.get c
      let r := k.run
      let report (o : Order) (x : Candidate) : Report :=
        .bid ⟨c, o.buyer, none, r.run, some (.order o.number), r.position, o.asked, none,
              some ⟨r.position, r.position, x.quantity⟩⟩
      let entry (o : Order) (arrival : Nat) : Candidate :=
        { buyer := o.buyer, point := o.point, origin := .order o.number, position := r.position, asked := o.asked,
          quantity := clampQuantity t.minPurchase t.remaining o.asked, arrival := arrival }
      let window (xs : List Candidate) (orders : List Order) : ClockUnit := { k with
        state := .window, orders := orders, candidates := xs, arrivals := k.arrivals + xs.length, strideTimer := none,
        windowTimer := some (p.now + k.config.stopWindow) }
      ((∀ o ∈ k.orders, ¬ meets r.price o ∨ o.fired = true) → answer (s.after p)) ∧
      (∀ pre o post, k.orders = pre ++ o :: post → (∀ x ∈ pre ++ post, ¬ meets r.price x ∨ x.fired = true) →
        meets r.price o → o.fired = false →
        let orders := pre ++ { o with fired := true } :: post
        let x := entry o (k.arrivals + 1)
        let q := p.enters c (window [x] orders)
        let opened : Part := { q with channels := q.channels.upd c (fun h =>
          { h with clockReports := h.clockReports ++ [report o x] }) }
        (o.blocked = true → answer (s.after { p with clocks := p.clocks.upd c (fun k => { k with orders := orders }) })) ∧
        (o.blocked = false → k.config.stopWindow ≠ 0 → answer (s.after opened)) ∧
        (o.blocked = false → k.config.stopWindow = 0 → answer (s.after (opened.decides c id t tr.picks)))) ∧
      (∀ first late, k.orders = first ++ late → first.length = 8 → k.config.stopWindow ≠ 0 →
        (∀ o ∈ k.orders, meets r.price o ∧ o.fired = false ∧ o.blocked = false) →
        let xs := first.zipIdx.map (fun e => entry e.1 (k.arrivals + 1 + e.2))
        let q := p.enters c (window xs (k.orders.map (fun o => { o with fired := true })))
        answer (s.after { q with channels := q.channels.upd c (fun h => { h with
          clockToAccount := h.clockToAccount ++ late.map (fun o => k.refusal c .outbid (entry o 0)),
          clockReports := h.clockReports ++ first.map (fun o => report o (entry o 0)) ++
            late.flatMap (fun o => [report o (entry o 0), k.refusalReport c .outbid none (entry o 0)]) }) }))
    (∀ w, s.pinLow = false → k.strideTimer = some w → k.run.position + 1 ≠ 65535 →
      let reached : Part := { s.part with now := max s.part.now w }
      let price := k.run.priceOf (k.run.position + 1)
      (k.state = .running → offered (fun u => exec (.strideEnd c) s = .next u)
        (reached.strides c (if k.run.minPrice = some price then .floor else .running) price 0)) ∧
      (k.state = .floor → k.run.dwell + 1 < k.config.floorDwell → offered (fun u => exec (.strideEnd c) s = .next u)
        (reached.strides c .floor k.run.price (k.run.dwell + 1)))) ∧
    (∀ w start, s.pinLow = false → k.state = .restart → k.restartTimer = some w → t.ceiling.isSome = true →
      k.run.restartPrice = some start →
      offered (fun u => exec (.restartDelayEnd c) s = .next u)
        (({ s.part with
            links := s.part.consoleTold s.part.links c [.runStarted c (if k.run.run = 65535 then 1 else k.run.run + 1) id start
              false (if k.run.minPrice = some start then .floor else .running)],
            now := max s.part.now w } : Part).runStarts c id start))

/-- R37, R38: HOLD CLOCK and RESUME in every clock state: what is held and where it returns to, a hold made pending and cleared, and the
refusals. A clock held from RESTART goes on to READY in a hall that is not OPEN (CLOSED: log 28), telling both changes (log 38), with
position and dwell count 0 there; whether the price is then 0 or that of the decided run, R71 against R25 and R68, is a free value (log 11).
ACK stands before CLOCK STATE, the model's order (log 13). -/
def Obligations.HoldAndResume : Prop :=
  (∀ (l : LinkId) (c : ClockId) (raw : List Byte) (s : State), s.Takes l (.console c) .holdClock raw →
     let k := s.part.clocks.get c
     let becomes (p : Part) : Prop := exec (.holdClock l) s = .next (s.after p)
     let acked (isPending : Bool) : Part := { s.part with links := s.part.answered l raw (.ack (.hold isPending)) }
     (k.state = .idle ∨ k.state = .ready → exec (.holdClock l) s = .next (s.refusing l raw .notRunning)) ∧
     (k.state = .held → becomes (acked false)) ∧
     (∀ back : HeldFrom, k.state = back.state → becomes ((acked false).enters c { k with
       state := .held, strideTimer := none, restartTimer := none,
       run := { k.run with heldFrom := some back, holdCause := some .console } })) ∧
     (k.state = .window ∨ k.state = .awarding → becomes { acked true with
       clocks := s.part.clocks.upd c (fun x =>
         if x.run.pendingHold then x
         else { x with run := { x.run with pendingHold := true, holdCause := some .console } }) })) ∧
  (∀ (l : LinkId) (c : ClockId) (raw : List Byte) (s : State), s.Takes l (.console c) .resume raw →
     let k := s.part.clocks.get c
     let becomes (p : Part) : Prop := exec (.resume l) s = .next (s.after p)
     let acked : Part := { s.part with links := s.part.answered l raw (.ack .plain) }
     let back (st : ClockState) : ClockUnit :=
       { k with state := st, run := { k.run with heldFrom := none, holdCause := none } }
     let descends (st : ClockState) : ClockUnit :=
       { back st with strideTimer := some (s.part.now + k.config.stridePeriod) }
     let delayed : ClockUnit := { back .restart with restartTimer := some (s.part.now + k.config.restartDelay) }
     (k.state ≠ .held → k.state ≠ .window → k.state ≠ .awarding →
       exec (.resume l) s = .next (s.refusing l raw .notHeld)) ∧
     (k.state = .window ∨ k.state = .awarding →
       (k.run.pendingHold = false → exec (.resume l) s = .next (s.refusing l raw .notHeld)) ∧
       (k.run.pendingHold = true → becomes { acked with clocks := s.part.clocks.upd c (fun x =>
         { x with run := { x.run with pendingHold := false, holdCause := none } }) })) ∧
     (k.state = .held →
       (k.run.heldFrom = some .running → becomes (acked.enters c (descends .running))) ∧
       (k.run.heldFrom = some .floor → becomes (acked.enters c (descends .floor))) ∧
       (k.run.heldFrom = some .restart → k.run.hallView = .opened → becomes (acked.enters c delayed)) ∧
       (k.run.heldFrom = some .restart → k.run.hallView ≠ .opened →
         becomes ((acked.enters c delayed).enters c { delayed with
           state := .ready, restartTimer := none,
           run := { delayed.run with position := 0, price := if Config.readyKeepsPrice then k.run.price else 0, dwell := 0 } }))))

/-- R39, R62: WITHDRAW LOT: its refusals in order; in AWARDING the withdrawal is made pending; else the lot is WITHDRAWN, the candidates of
an open window being refused WITHDRAWN first. That lot id 0 is MALFORMED before NO_LOT and UNKNOWN_LOT (log 52), that ACK stands before
CLOCK STATE and LOT CLOSED (log 13), and that BID REFUSED of a standing order's candidate carries the clock's run number (log 41), are the
model's choices. -/
def Obligations.LotWithdrawnByConsole : Prop :=
  ∀ (l : LinkId) (c : ClockId) (raw : List Byte) (s : State), s.Takes l (.console c) .withdrawLot raw →
    let k := s.part.clocks.get c
    let id := fieldAt (parse raw).body 0 4
    (id = 0 → exec (.withdrawLot l) s = .next (s.refusing l raw .malformed)) ∧
    (id ≠ 0 → k.state = .idle → exec (.withdrawLot l) s = .next (s.refusing l raw .noLot)) ∧
    (id ≠ 0 → k.state ≠ .idle → k.run.lot ≠ some id → exec (.withdrawLot l) s = .next (s.refusing l raw .unknownLot)) ∧
    (id ≠ 0 → k.run.lot = some id → k.state = .awarding → exec (.withdrawLot l) s = .next (s.after { s.part with
      links := s.part.answered l raw (.ack (.withdrawal true)),
      clocks := s.part.clocks.upd c (fun x => { x with run := { x.run with pendingWithdrawal := true } }) })) ∧
    (∀ t, id ≠ 0 → k.run.lot = some id → s.part.lot id = some t → k.Ok → k.state ≠ .idle → k.state ≠ .awarding →
      let abandoned : Part := { s.part with
        links := s.part.answered l raw (.ack (.withdrawal false)),
        clocks := s.part.clocks.upd c (fun x =>
          if x.state = .window then { x with candidates := [], arrivals := 0, tried := 0, inFlight := none } else x),
        channels := s.part.channels.upd c (k.refusals c .withdrawn k.candidates) }
      exec (.withdrawLot l) s = .next (s.after (abandoned.lotEnds c id t .withdrawn)))

/-- R42, R95, R163: a hall notice becomes the hall view and is answered with the activity; at CLOSING a clock in RESTART goes to READY, with
position and dwell count 0 there, and with the price 0 or that of the decided run, a free value (log 11); at CLOSED every standing order
ends DAY_CLOSED, in table order. -/
def Obligations.HallNoticesTaken : Prop :=
  ∀ (c : ClockId) (rest : List ToClock) (s : State), s.pinLow = false →
    let k := s.part.clocks.get c
    let notice (h : HallState) : Prop := (s.part.channels.get c).accountToClock = .hall h :: rest
    let active : Bool := decide (k.state ≠ .idle ∧ k.state ≠ .ready)
    let answered (h : HallState) (ms : List ToAccount) (orders : List Order) : State := s.after { s.part with
      clocks := s.part.clocks.upd c (fun x => { x with orders := orders, run := { x.run with hallView := h } }),
      channels := s.part.channels.upd c (fun x => { x with
        accountToClock := rest, clockToAccount := x.clockToAccount ++ ms ++ [.activity active (some h)] }) }
    (notice .opened → exec (.hallNoticeOpen c) s = .next (answered .opened [] k.orders)) ∧
    (notice .closing → k.state ≠ .restart → exec (.hallNoticeClosing c) s = .next (answered .closing [] k.orders)) ∧
    (notice .closing → k.state = .restart →
      let taken : Part := { s.part with channels := s.part.channels.upd c (fun x => { x with accountToClock := rest }) }
      let ready := taken.enters c { k with
        state := .ready, restartTimer := none,
        run := { k.run with
          hallView := .closing, position := 0, price := if Config.readyKeepsPrice then k.run.price else 0, dwell := 0 } }
      exec (.hallNoticeClosing c) s = .next (s.after { ready with
        channels := ready.channels.upd c (fun x =>
          { x with clockToAccount := x.clockToAccount ++ [.activity false (some .closing)] }) })) ∧
    (notice .closed → exec (.hallNoticeClosed c) s = .next (answered .closed
      (k.orders.map (fun o => o.ended c .dayClosed o.count o.target none)) []))

/-! ### Bids, windows and awards -/

/-- R43, R44, R85: a BID of a right format on a DESK GROUP link: what makes it malformed, checks 2 to 6 in order with the refresh of a bound
desk, and the hand-over of an ordinary bid and of a placement. The origin a refused placement carries is left open (log 17). Which fields
the refusals carry, none of the clamped pair and a malformed bid none at all, is the model's reading (log 19). -/
def Obligations.BidIntake : Prop :=
  ∀ (l : LinkId) (raw : List Byte) (g : DeskGroup) (c : ClockId) (s : State), s.Takes l .deskGroup .bid raw →
    s.part.account.groups.get l = some g →
    let m := parse raw
    let b := readBid m.body
    let formed := b.desk ≤ 1023 ∧ b.run ≠ 0 ∧ b.quantity ≤ 9999 ∧ (m.repeats.isSome = true → m.limit.isSome = true)
    let a := s.part.account
    let refreshed (i : Nat) : Account := { a with desks := a.desks.modify i (fun x => { x with activity := s.part.now }) }
    let target : DeskTarget := ⟨l, b.desk⟩
    let refused (a' : Account) (cause : Cause) (buyer : Nat) : Prop := ∃ origin, (m.limit = none → origin = .pressed) ∧
      exec (.bid l) s = .next (s.after { s.part with
        links := s.part.answered l raw (.bidRefused (some b.desk) ⟨some c, some b.run, cause, some origin, none⟩),
        account := a',
        accountReports := s.part.accountReports ++
          [.bid ⟨c, buyer, some target, b.run, some origin, b.pressed, b.quantity, some cause, none⟩] })
    let handed (a' : Account) (h : ToClock) : Prop := exec (.bid l) s = .next (s.after { s.part with
      links := s.part.unqueued l, account := a',
      channels := s.part.channels.upd c (fun x => { x with accountToClock := x.accountToClock ++ [h] }) })
    (¬ formed → exec (.bid l) s = .next (s.after { s.part with
      links := s.part.answered l raw (.bidRefused (deskGiven m) ⟨none, none, .malformed, none, none⟩) })) ∧
    (formed → m.clock = some (clockNumber c) ∨ (m.clock = none ∧ g.defaultClock = c) →
      (a.hall.state ≠ .opened → refused a .hallClosed 0) ∧
      (a.hall.state = .opened → localToHall g.map b.desk = none → refused a .unmappedDesk 0) ∧
      (∀ i, a.hall.state = .opened → localToHall g.map b.desk = some i →
        (a.desks.find i = none → refused a .notLoggedIn 0) ∧
        (∀ d r, a.desks.find i = some d → s.part.buyer d.buyer = some r →
          (r.blocked = true → refused (refreshed i) .blocked d.buyer) ∧
          (r.blocked = false → r.members.get c = false → refused (refreshed i) .notMember d.buyer) ∧
          (r.blocked = false → r.members.get c = true →
            (m.limit = none → handed (refreshed i)
              (.bid ⟨d.buyer, r.point, target, b.run, b.pressed, b.quantity, m.tag⟩)) ∧
            (∀ limit, m.limit = some limit → handed
              { refreshed i with buyers := a.buyers.modify d.buyer (fun x => { x with orderMark := true }) }
              (.placement ⟨d.buyer, r.point, target, b.product, limit, b.quantity, m.repeats.getD 1, m.untilChange,
                           m.tag⟩))))))

/-- R45, R47, R48, R50, R53: the Clock Unit's checks of an admitted bid, and the first candidate of a window: the run is frozen, the window
opens, and a stop window of 0 ms goes on to the decision in the same handling. -/
def Obligations.BidJudgedByClock : Prop :=
  ∀ (c : ClockId) (b : BidHandover) (rest : List ToClock) (s : State), s.pinLow = false →
    (s.part.channels.get c).accountToClock = .bid b :: rest →
    let k := s.part.clocks.get c
    let report (verdict : Option Cause) (a : Option Admission) : Report :=
      .bid ⟨c, b.buyer, some b.target, b.run, some .pressed, b.pressed, b.asked, verdict, a⟩
    let refused (cause : Cause) : Prop := exec (.admittedBid c) s = .next (s.after { s.part with
      channels := s.part.channels.upd c (fun h => { h with
        accountToClock := rest,
        clockToAccount := h.clockToAccount ++
          [.outcome b.buyer b.tag (.refused ⟨some c, some b.run, cause, some .pressed, none⟩)],
        clockReports := h.clockReports ++ [report (some cause) none] }) })
    (b.run ≠ k.run.run → refused .wrongRun) ∧
    (b.run = k.run.run → k.state = .awarding ∨ k.state = .restart ∨ k.state = .held → refused .late) ∧
    (b.run = k.run.run → k.state = .idle ∨ k.state = .ready → refused .notRunning) ∧
    (∀ id n t tr, b.run = k.run.run → k.state = .running ∨ k.state = .floor → k.Ok → k.run.lot = some id →
      s.part.lot id = some t → s.part.supply.slots.get c = some n → s.part.trolley n = some tr →
      let x : Candidate := { buyer := b.buyer, point := b.point, origin := .pressed b.target b.tag,
                             position := clampPosition k.run.position k.config.lagLimit b.pressed, asked := b.asked,
                             quantity := clampQuantity t.minPurchase t.remaining b.asked, arrival := k.arrivals + 1 }
      let taken : Part := { s.part with channels := s.part.channels.upd c (fun h => { h with
        accountToClock := rest,
        clockReports := h.clockReports ++ [report none (some ⟨k.run.position, x.position, x.quantity⟩)] }) }
      exec (.admittedBid c) s = .next (s.after
        (taken.opensWindow c id t tr.picks { k with candidates := [x], arrivals := k.arrivals + 1 } (fun h => h))))

/-- R49 to R52, R54: a bid admitted in WINDOW: a new buyer's candidate takes its place in the list, a buyer's own candidate is replaced from
a lower position alone, and a full list admits a candidate only before its last, which is then refused OUTBID. That the report of the
admission stands before that of a refusal it makes is the model's reading (log 50); that BID REFUSED of a standing order's candidate carries
the clock's run number (log 41) is its choice. -/
def Obligations.CandidateEntered : Prop :=
  ∀ (c : ClockId) (b : BidHandover) (rest : List ToClock) (id : Nat) (t : Lot) (s : State), s.pinLow = false →
    (s.part.channels.get c).accountToClock = .bid b :: rest →
    let k := s.part.clocks.get c
    b.run = k.run.run → k.state = .window → k.Ok → k.run.lot = some id → s.part.lot id = some t →
    let x : Candidate := { buyer := b.buyer, point := b.point, origin := .pressed b.target b.tag,
                           position := clampPosition k.run.position k.config.lagLimit b.pressed, asked := b.asked,
                           quantity := clampQuantity t.minPurchase t.remaining b.asked, arrival := k.arrivals + 1 }
    let report : Report := .bid ⟨c, b.buyer, some b.target, b.run, some .pressed, b.pressed, b.asked, none,
                                 some ⟨k.run.position, x.position, x.quantity⟩⟩
    let taken (h : Channels) : Channels :=
      { h with accountToClock := rest, clockReports := h.clockReports ++ [report] }
    let stays (refused : Candidate) (cause : Cause) : Prop := exec (.admittedBid c) s = .next (s.after { s.part with
      channels := s.part.channels.upd c (fun h => k.refusals c cause [refused] (taken h)) })
    let placed (held : List Candidate) (refused : List Candidate) : Prop := ∃ pre post, held = pre ++ post ∧
      (∀ y ∈ pre, y.position ≤ x.position) ∧ (∀ y, post.head? = some y → x.position < y.position) ∧
      exec (.admittedBid c) s = .next (s.after { s.part with
        clocks := s.part.clocks.upd c (fun k => { k with candidates := pre ++ x :: post, arrivals := k.arrivals + 1 }),
        channels := s.part.channels.upd c (fun h => k.refusals c .outbid refused (taken h)) })
    ((∀ y ∈ k.candidates, y.buyer ≠ b.buyer) →
      (k.candidates.length < 8 → placed k.candidates []) ∧
      (∀ last, k.candidates.length = 8 → k.candidates.getLast? = some last →
        (x.position < last.position → placed k.candidates.dropLast [last]) ∧
        (last.position ≤ x.position → stays { x with arrival := 0 } .outbid))) ∧
    (∀ held, k.candidates.find? (fun y => decide (y.buyer = b.buyer)) = some held →
      (x.position < held.position → placed (k.candidates.filter (fun y => decide (y.buyer ≠ b.buyer))) []) ∧
      (held.position ≤ x.position → stays { x with arrival := 0 } .duplicate))

/-- R35, R55 to R57, R61: at the end of the window the clock is AWARDING and the candidates are tried in list order: those without pick room
are refused PICKS_FULL, and a reservation goes out for the first other. With none the decision ends: the clock is held if a hold is pending,
and descends again if not. The time base moves on to the timer's end (log 3); BID REFUSED of a standing order's candidate carries the
clock's run number (log 41): the model's choices. -/
def Obligations.WindowDecides : Prop :=
  ∀ (c : ClockId) (w id n : Nat) (t : Lot) (tr : Trolley) (s : State), s.pinLow = false →
    let k := s.part.clocks.get c
    k.state = .window → k.Ok → k.windowTimer = some w → k.run.lot = some id → s.part.lot id = some t →
    s.part.supply.slots.get c = some n → s.part.trolley n = some tr →
    let reached : Part := { s.part with now := max s.part.now w }
    let awarding : ClockUnit := { k with state := .awarding, windowTimer := none, tried := 0 }
    let begun := reached.enters c awarding
    let refused (xs : List Candidate) : PerClock Channels := begun.channels.upd c (k.refusals c .picksFull xs)
    let becomes (p : Part) : Prop := exec (.windowExpiry c) s = .next (s.after p)
    becomes (reached.decides c id t tr.picks) ∧
    (∀ pre x post, k.candidates = pre ++ x :: post → (∀ y ∈ pre, ¬ y.HasRoom tr.picks) → x.HasRoom tr.picks →
      let price := k.run.priceOf x.position
      becomes { begun with
        clocks := s.part.clocks.upd c (fun _ => { awarding with tried := pre.length, inFlight := some price }),
        channels := (refused pre).upd c (fun h => { h with clockToAccount := h.clockToAccount ++
          [.reservation ⟨x.buyer, id, t.product, t.grower, t.cls, t.stems, price, x.quantity, k.run.run⟩] }) }) ∧
    ((∀ y ∈ k.candidates, ¬ y.HasRoom tr.picks) →
      let told : Part := { begun with channels := refused k.candidates }
      let ended : ClockUnit := { k with windowTimer := none, candidates := [], arrivals := 0, tried := 0, inFlight := none }
      let floor := k.run.minPrice = some k.run.price
      (k.run.pendingHold = false → becomes (told.enters c { ended with
        state := if floor then .floor else .running, strideTimer := some (reached.now + k.config.stridePeriod) })) ∧
      (k.run.pendingHold = true → becomes (told.enters c { ended with
        state := .held,
        run := { k.run with heldFrom := some (if floor then .floor else .running), pendingHold := false } })))

/-- R35, R58, R61, R92: REFUSE refuses the candidate in flight with its cause, which ends its order when it is CREDIT. The next candidate
with pick room is tried; with none left the clock is held if a hold is pending and descends again if not; with a withdrawal pending the rest
are refused WITHDRAWN and the lot is withdrawn. The rest are refused in list order (log 53), BID REFUSED of a standing order's candidate
carries the clock's run number (log 41), and LOT CLOSED stands behind CLOCK STATE (log 13): the model's choices. -/
def Obligations.RefusalTaken : Prop :=
  ∀ (c : ClockId) (cause : Cause) (rest : List ToClock) (id n price : Nat) (t : Lot) (tr : Trolley) (x : Candidate)
    (ys : List Candidate) (s : State), s.pinLow = false →
    (s.part.channels.get c).accountToClock = .refuse cause :: rest →
    let k := s.part.clocks.get c
    k.state = .awarding → k.Ok → k.candidates.drop k.tried = x :: ys → k.inFlight = some price → k.run.lot = some id →
    s.part.lot id = some t → s.part.supply.slots.get c = some n → s.part.trolley n = some tr →
    let ends (o : Order) : Bool := decide (cause = .credit) && decide (x.origin = .order o.number)
    let after : ClockUnit := { k with
      tried := k.tried + 1, inFlight := none, orders := k.orders.filter (fun o => !ends o) }
    let refused : Part := { s.part with
      clocks := s.part.clocks.upd c (fun _ => after),
      channels := s.part.channels.upd c (fun h => { h with
        accountToClock := rest,
        clockToAccount := h.clockToAccount ++ k.refusal c cause x ::
          (k.orders.filter ends).map (fun o => o.ended c .credit o.count o.target none),
        clockReports := h.clockReports ++ [k.refusalReport c cause (some price) x] }) }
    let ended : ClockUnit := { after with candidates := [], arrivals := 0, tried := 0 }
    let told (cause : Cause) (xs : List Candidate) (k' : ClockUnit) : Part := { refused with
      clocks := s.part.clocks.upd c (fun _ => k'), channels := refused.channels.upd c (k.refusals c cause xs) }
    let becomes (p : Part) : Prop := exec (.refuse c) s = .next (s.after p)
    (k.run.pendingWithdrawal = false → becomes (refused.tries c id t tr.picks ys)) ∧
    (k.run.pendingWithdrawal = true → becomes ((told .withdrawn ys ended).lotEnds c id t .withdrawn)) ∧
    (∀ pre y post, k.run.pendingWithdrawal = false → ys = pre ++ y :: post → (∀ z ∈ pre, ¬ z.HasRoom tr.picks) →
      y.HasRoom tr.picks →
      let next := k.run.priceOf y.position
      let p := told .picksFull pre { after with tried := k.tried + 1 + pre.length, inFlight := some next }
      becomes { p with channels := p.channels.upd c (fun h => { h with clockToAccount := h.clockToAccount ++
        [.reservation ⟨y.buyer, id, t.product, t.grower, t.cls, t.stems, next, y.quantity, k.run.run⟩] }) }) ∧
    (k.run.pendingWithdrawal = false → (∀ z ∈ ys, ¬ z.HasRoom tr.picks) →
      let floor := k.run.minPrice = some k.run.price
      (k.run.pendingHold = false → becomes ((told .picksFull ys ended).enters c { ended with
        state := if floor then .floor else .running, strideTimer := some (s.part.now + k.config.stridePeriod) })) ∧
      (k.run.pendingHold = true → becomes ((told .picksFull ys ended).enters c { ended with
        state := .held,
        run := { k.run with heldFrom := some (if floor then .floor else .running), pendingHold := false } })))

/-- R18, R35, R59, R60, R74, R92, R170: GRANT makes the award: the lot's units, the trolley's pick, the last award and the count of the
winner's order are written; AWARD NOTICE, the AWARD, the award event and its report go out, the later candidates are refused OUTBID and an
order without wins left ends COMPLETE; the clock moves on by R35. That ORDER ENDED is handed over behind those refusals (log 47), that the
award's report stands before theirs (log 49), that the dwell count is cleared also where the clock is then HELD (log 12), that a hall view
CLOSED counts as CLOSING (log 28), that BID REFUSED of a standing order's candidate carries the clock's run number (log 41) and that LOT
CLOSED stands behind CLOCK STATE (log 13) are the model's choices. READY has position 0; whether its price is 0 or that of the decided run,
R71 against R25 and R68, is a free value (log 11). -/
def Obligations.GrantAwards : Prop :=
  ∀ (c : ClockId) (line : Nat) (rest : List ToClock) (id n price : Nat) (t : Lot) (x : Candidate)
    (ys : List Candidate) (s : State), s.pinLow = false →
    (s.part.channels.get c).accountToClock = .grant line :: rest →
    let k := s.part.clocks.get c
    k.state = .awarding → k.Ok → k.candidates.drop k.tried = x :: ys → k.inFlight = some price → k.run.lot = some id →
    s.part.lot id = some t → s.part.supply.slots.get c = some n →
    let own (p : Pick) : Bool := decide (p.buyer = x.buyer) && decide (p.point = x.point)
    let merged (picks : List Pick) : List Pick :=
      if picks.any own then picks.map (fun p => if own p then { p with units := p.units + x.quantity } else p)
      else picks ++ [⟨x.buyer, x.point, x.quantity⟩]
    let left := t.remaining - x.quantity
    let sold : Lot := { t with remaining := left, sold := t.sold + x.quantity }
    let again := min (price + k.config.restartMarkup * k.run.step.getD 0) (t.ceiling.getD price)
    let wins (o : Order) : Bool := decide (x.origin = .order o.number)
    let won : ClockUnit := { k with
      candidates := [], arrivals := 0, tried := 0, inFlight := none,
      orders := (k.orders.filter (fun o => !(wins o && decide (o.count ≤ 1)))).map (fun o =>
        if wins o then { o with count := o.count - 1 } else o),
      run := { k.run with lastAward := some ⟨x.buyer, x.quantity, price⟩ } }
    let recorded : Part := { s.part with
      supply := { s.part.supply with
        lots := s.part.supply.lots.modify id (fun t =>
          { t with remaining := t.remaining - x.quantity, sold := t.sold + x.quantity }),
        trolleys := s.part.supply.trolleys.modify n (fun y => { y with picks := merged y.picks }) },
      clocks := s.part.clocks.upd c (fun _ => won) }
    let awarded : Part := { recorded with
      links := s.part.consoleTold s.part.links c
        [.awardNotice ⟨c, k.run.run, id, x.buyer, x.point, x.origin.origin, x.position, x.quantity, price, left, line⟩],
      channels := s.part.channels.upd c (fun h => { h with
        accountToClock := rest,
        clockToAccount := h.clockToAccount ++
          [.outcome x.buyer x.origin.tag
            (.award ⟨c, k.run.run, id, t.product, x.position, x.quantity, price, line, x.origin.origin⟩)] ++
          ys.map (k.refusal c .outbid) ++
          (k.orders.filter (fun o => wins o && decide (o.count ≤ 1))).map (fun o => o.ended c .complete 0 o.target none),
        clockToDisplay := h.clockToDisplay ++ [.award (recorded.report c) x.quantity],
        clockReports := h.clockReports ++
          .outcome ⟨c, k.run.run, id, x.buyer, x.origin.origin, x.position, x.quantity, .award price line⟩ ::
          ys.map (k.refusalReport c .outbid none) }) }
    let raised : ClockUnit := { won with run := { won.run with restartPrice := some again, dwell := 0 } }
    let becomes (p : Part) : Prop := exec (.grant c) s = .next (s.after p)
    (left = 0 → becomes (awarded.lotEnds c id sold .soldOut)) ∧
    (left ≠ 0 → k.run.pendingWithdrawal = true →
      becomes (({ awarded with clocks := s.part.clocks.upd c (fun _ => raised) } : Part).lotEnds c id sold .withdrawn)) ∧
    (left ≠ 0 → k.run.pendingWithdrawal = false →
      (k.run.pendingHold = true → becomes (awarded.enters c { raised with
        state := .held, run := { raised.run with heldFrom := some .restart, pendingHold := false } })) ∧
      (k.run.pendingHold = false → k.run.hallView = .opened → becomes (awarded.enters c { raised with
        state := .restart, restartTimer := some (s.part.now + k.config.restartDelay) })) ∧
      (k.run.pendingHold = false → k.run.hallView ≠ .opened → becomes (awarded.enters c { raised with
        state := .ready, restartTimer := none,
        run := { raised.run with position := 0, price := if Config.readyKeepsPrice then k.run.price else 0 } })))

/-- R63, R86, R94 to R96, R106, R108: what a Clock Unit hands back for desks, through the Account Unit (log 8): an outcome goes to the desk
the buyer is bound to, or nowhere; an answer goes on the link it names, when that is UP (log 44); an ORDER ENDED goes to the bound desk as
it stands, to the order's desk target for an unbound buyer, and for LOGOUT and CANCELLED to the target it names (log 27). Nothing but a
queue of messages changes. -/
def Obligations.OutcomesDelivered : Prop :=
  ∀ (c : ClockId) (rest : List ToAccount) (s : State), s.pinLow = false →
    let first (m : ToAccount) : Prop := (s.part.channels.get c).clockToAccount = m :: rest
    let taken (links : PerLink Link) : State := s.after { s.part with
      links := links, channels := s.part.channels.upd c (fun h => { h with clockToAccount := rest }) }
    let posted (l : LinkId) (m : OutMsg) : State := taken (s.part.links.upd l (fun k =>
      if k.state ≠ .up then k else if k.urgent.length < 24 then { k with urgent := k.urgent ++ [m] }
      else { k with gapPending := true, stats := { k.stats with urgentDrops := count32 k.stats.urgentDrops } }))
    let unbound (buyer : Nat) : Prop := s.part.buyer buyer = none ∨ ∃ r, s.part.buyer buyer = some r ∧ r.desk = none
    let bound (buyer : Nat) (l : LinkId) (d : Nat) : Prop := ∃ r i g, s.part.buyer buyer = some r ∧ r.desk = some i ∧
      s.part.account.groups.get l = some g ∧ hallToLocal g.map i = some d ∧
      ∀ l' g', s.part.account.groups.get l' = some g' → l' ≠ l → hallToLocal g'.map i = none
    (∀ buyer tag o, first (.outcome buyer tag o) →
      (unbound buyer → exec (.deliverOutcome c) s = .next (taken s.part.links)) ∧
      (∀ l d, bound buyer l d → exec (.deliverOutcome c) s = .next (posted l ⟨tag, match o with
        | .award a => .award d a
        | .refused b => .bidRefused (some d) b⟩))) ∧
    (∀ target tag o, first (.reply target tag o) → exec (.deliverOutcome c) s = .next (posted target.link ⟨tag, match o with
      | .placed b => .orderPlaced b
      | .ordersFull b => .bidRefused (some target.desk) b
      | .noOrder => .refused none .noOrder none⟩)) ∧
    (∀ l tag b, first (.orderEnded l tag b) →
      (b.reason = .logout ∨ b.reason = .cancelled ∨ unbound b.buyer →
        exec (.orderEnded c) s = .next (posted l ⟨tag, .orderEnded b⟩)) ∧
      (∀ n d, b.reason ≠ .logout → b.reason ≠ .cancelled → bound b.buyer n d →
        exec (.orderEnded c) s = .next (posted n ⟨tag, .orderEnded { b with desk := d }⟩)))

/-! ### Standing orders -/

/-- R84, R86: a placement: appended under the first number from the count on that no order and no candidate holds, in place of the buyer's
own order if there is one, and answered ORDER PLACED; refused ORDERS_FULL by a table of 16 orders of other buyers, with no run number and
an origin left open (log 17) and the count of placements as it was, the model's choice (log 48). The answers are handed to the Account Unit (log 8). -/
def Obligations.OrderPlaced : Prop :=
  ∀ (c : ClockId) (h : PlacementHandover) (rest : List ToClock) (s : State), s.pinLow = false →
    (s.part.channels.get c).accountToClock = .placement h :: rest →
    let k := s.part.clocks.get c
    k.Ok →
    let order (n : Nat) : Order :=
      { number := n, buyer := h.buyer, product := h.product, limit := h.limit, asked := h.asked, count := h.count,
        untilChange := h.untilChange, point := h.point, blocked := false, target := h.target, fired := false }
    let placed (n : Nat) (replaced : Option Nat) : ToAccount := .reply h.target h.tag (.placed
      ⟨c, n, h.product, h.limit, h.asked, h.count, h.untilChange, replaced, h.target.desk⟩)
    let becomes (n : Nat) (orders : List Order) (ms : List ToAccount) : State := s.after { s.part with
      clocks := s.part.clocks.upd c (fun x => { x with
        orders := orders ++ [order n], nextOrder := if n = 65535 then 1 else n + 1 }),
      channels := s.part.channels.upd c (fun x => { x with
        accountToClock := rest, clockToAccount := x.clockToAccount ++ ms }) }
    let free (n : Nat) (orders : List Order) : Prop := FirstFree
      (fun i => i ∈ orders.map Order.number ∨ CandOrigin.order i ∈ k.candidates.map Candidate.origin) k.nextOrder n
    ((∀ o ∈ k.orders, o.buyer ≠ h.buyer) →
      (k.orders.length < 16 → ∃ n, free n k.orders ∧
        exec (.placement c) s = .next (becomes n k.orders [placed n none])) ∧
      (16 ≤ k.orders.length → ∃ origin, exec (.placement c) s = .next (s.after { s.part with
        channels := s.part.channels.upd c (fun x => { x with
          accountToClock := rest,
          clockToAccount := x.clockToAccount ++
            [.reply h.target h.tag (.ordersFull ⟨some c, none, .ordersFull, some origin, none⟩)] }) }))) ∧
    (∀ o, k.orders.find? (fun x => decide (x.buyer = h.buyer)) = some o →
      let others := k.orders.filter (fun x => decide (x.number ≠ o.number))
      ∃ n, free n others ∧ exec (.placement c) s = .next
        (becomes n others [o.ended c .replaced o.count o.target none, placed n (some o.number)]))

/-- R87, R94, R95: a cancel, a buyer notice and an end request act on the order of their buyer alone: it ends, with the target and TAG its
rule gives, or takes the notified values. Without an order a cancel is answered NO_ORDER, handed back through the Account Unit (log 8), and
the others do nothing. The targets are those the hand-over names; where ORDER ENDED goes from there is stated with its delivery (log 27). -/
def Obligations.OrdersEndAndChange : Prop :=
  ∀ (c : ClockId) (rest : List ToClock) (s : State), s.pinLow = false →
    let k := s.part.clocks.get c
    let first (m : ToClock) : Prop := (s.part.channels.get c).accountToClock = m :: rest
    let becomes (orders : List Order) (ms : List ToAccount) : State := s.after { s.part with
      clocks := s.part.clocks.upd c (fun x => { x with orders := orders }),
      channels := s.part.channels.upd c (fun x => { x with
        accountToClock := rest, clockToAccount := x.clockToAccount ++ ms }) }
    let order (buyer : Nat) (o : Order) : Prop := k.orders.find? (fun x => decide (x.buyer = buyer)) = some o
    let without (o : Order) : List Order := k.orders.filter (fun x => decide (x.number ≠ o.number))
    let noOrder (buyer : Nat) : Prop := ∀ o ∈ k.orders, o.buyer ≠ buyer
    (∀ buyer target tag, first (.cancel buyer target tag) →
      (∀ o, order buyer o → exec (.cancelRequest c) s = .next
        (becomes (without o) [o.ended c .cancelled o.count target tag])) ∧
      (noOrder buyer → exec (.cancelRequest c) s = .next (becomes k.orders [.reply target tag .noOrder]))) ∧
    (∀ n, first (.notice n) →
      (∀ o, order n.buyer o → n.members.get c = false →
        exec (.buyerNotice c) s = .next (becomes (without o) [o.ended c .notMember o.count o.target none])) ∧
      (∀ o, order n.buyer o → n.members.get c = true → exec (.buyerNotice c) s = .next (becomes
        (k.orders.map (fun x =>
          if x.buyer = n.buyer then { x with blocked := n.blocked, point := n.point, target := n.target.getD x.target }
          else x)) [])) ∧
      (noOrder n.buyer → exec (.buyerNotice c) s = .next (becomes k.orders []))) ∧
    (∀ buyer target, first (.endOrders buyer target) →
      (∀ o, order buyer o → exec (.endRequest c) s = .next
        (becomes (without o) [o.ended c .logout o.count (target.getD o.target) none])) ∧
      (noOrder buyer → exec (.endRequest c) s = .next (becomes k.orders [])))

/-! ### Desks -/

/-- R107, R108: LOGIN: its refusals in order, each with the local desk (of a malformed one: log 43); a repeated LOGIN refreshes the desk;
else the buyer is bound to the desk, the desk's old buyer is logged out REPLACED with end requests, the buyer's old desk is released MOVED,
a buyer who moved with an order mark is notified to the clocks, and LOGGED IN comes last. -/
def Obligations.LoginTaken : Prop :=
  ∀ (l : LinkId) (raw : List Byte) (g : DeskGroup) (s : State), s.Takes l .deskGroup .login raw →
    s.part.account.groups.get l = some g → s.part.TablesOk → s.part.BindingsOk →
    let m := parse raw
    let d := fieldAt m.body 0 2
    let id := fieldAt m.body 2 3
    let a := s.part.account
    let formed := d ≤ 1023 ∧ 1 ≤ id ∧ id ≤ 999999
    let refused (cause : Cause) : Prop := exec (.login l) s = .next (s.after { s.part with
      links := s.part.answered l raw (.refused none cause (some d)) })
    (¬ formed → refused .malformed) ∧
    (formed →
      (a.hall.state ≠ .opened → refused .hallClosed) ∧
      (a.hall.state = .opened → localToHall g.map d = none → refused .unmappedDesk) ∧
      (∀ i, a.hall.state = .opened → localToHall g.map d = some i →
        (s.part.buyer id = none → refused .unknownBuyer) ∧
        (∀ r, s.part.buyer id = some r →
          (r.desk = some i → exec (.login l) s = .next (s.after { s.part with
            links := s.part.answered l raw (.loggedIn d id r.members r.blocked r.point),
            account := { a with desks := a.desks.modify i (fun x => { x with activity := s.part.now }) } })) ∧
          (r.desk ≠ some i →
            let old := a.desks.find i
            let ends : List ToClock := (old.map (fun b => .endOrders b.buyer (s.part.deskTarget i))).toList
            let notices : List ToClock :=
              if r.desk.isSome = true ∧ r.orderMark = true then [.notice ⟨id, r.blocked, r.point, r.members, some ⟨l, d⟩⟩]
              else []
            let replaced : PerLink Link := match old with
              | none => s.part.unqueued l
              | some b => s.part.deskTold (s.part.unqueued l) i (fun e => .loggedOut e .replaced b.buyer)
            let moved : PerLink Link := match r.desk with
              | none => replaced
              | some j => s.part.deskTold replaced j (fun e => .loggedOut e .moved id)
            exec (.login l) s = .next (s.after { s.part with
              links := moved.upd l (fun k => k.putUrgent ⟨m.tag, .loggedIn d id r.members r.blocked r.point⟩),
              account := { a with
                desks := Table.put (a.desks.filter (fun e => decide (r.desk ≠ some e.1))) i ⟨id, s.part.now⟩,
                buyers := a.buyers.map (fun e =>
                  if e.1 = id then (e.1, { e.2 with desk := some i })
                  else if old.map Binding.buyer = some e.1 then (e.1, { e.2 with desk := none, orderMark := false })
                  else e) },
              channels := s.part.channels.map (fun h =>
                { h with accountToClock := h.accountToClock ++ ends ++ notices }) })))))

/-- R94, R106, R109 to R111: LOGOUT, PRESENT and CANCEL ORDER: the refusals they share and what each does for a bound desk; and the age
expiry of a desk, which moves the time base on (log 3) and is none on a link that does not age. The expiry of an unbound desk changes
nothing (log 2): the model's choices. -/
def Obligations.BoundDesksServed : Prop :=
  (∀ (l : LinkId) (raw : List Byte) (k : Kind) (g : DeskGroup) (s : State), s.Takes l .deskGroup k raw →
    k = .logout ∨ k = .present ∨ k = .cancelOrder → s.part.account.groups.get l = some g →
    let m := parse raw
    let d := fieldAt m.body 0 2
    let a := s.part.account
    (1023 < d → exec (k.command l) s = .next (s.refusing l raw .malformed)) ∧
    (d ≤ 1023 → localToHall g.map d = none → exec (k.command l) s = .next (s.refusing l raw .unmappedDesk)) ∧
    (∀ i, d ≤ 1023 → localToHall g.map d = some i →
      (a.desks.find i = none → exec (k.command l) s = .next (s.refusing l raw .notLoggedIn)) ∧
      (∀ b, a.desks.find i = some b →
        let refreshed : Account := { a with desks := a.desks.modify i (fun x => { x with activity := s.part.now }) }
        (k = .present → exec (.present l) s = .next (s.after { s.part with
          links := s.part.answered l raw (.ack (.present d b.buyer)), account := refreshed })) ∧
        (∀ c, k = .cancelOrder → m.clock = some (clockNumber c) ∨ (m.clock = none ∧ g.defaultClock = c) →
          exec (.cancelOrder l) s = .next (s.after { s.part with
            links := s.part.unqueued l, account := refreshed,
            channels := s.part.channels.upd c (fun h =>
              { h with accountToClock := h.accountToClock ++ [.cancel b.buyer ⟨l, d⟩ m.tag] }) })) ∧
        (k = .logout → exec (.logout l) s = .next (s.after { s.part with
          links := s.part.answered l raw (.loggedOut d .logout b.buyer),
          account := { a with
            desks := a.desks.del i,
            buyers := a.buyers.modify b.buyer (fun x => { x with desk := none, orderMark := false }) },
          channels := s.part.channels.map (fun h =>
            { h with accountToClock := h.accountToClock ++ [.endOrders b.buyer (some ⟨l, d⟩)] }) }))))) ∧
  (∀ (i : Nat) (s : State), s.pinLow = false →
    (s.part.account.desks.find i = none → exec (.ageExpiry i) s = .next s) ∧
    (∀ b target g, s.part.account.desks.find i = some b → s.part.deskTarget i = some target →
      s.part.account.groups.get target.link = some g →
      (g.aging = false → exec (.ageExpiry i) s = .next s) ∧
      (g.aging = true → (s.part.links.get target.link).state = .up → exec (.ageExpiry i) s = .next (s.after { s.part with
        now := max s.part.now (b.activity + g.age * 60000),
        links := s.part.links.upd target.link (fun k => k.putUrgent ⟨none, .loggedOut target.desk .aged b.buyer⟩),
        account := { s.part.account with
          desks := s.part.account.desks.del i,
          buyers := s.part.account.buyers.modify b.buyer (fun x => { x with desk := none, orderMark := false }) },
        channels := s.part.channels.map (fun h =>
          { h with accountToClock := h.accountToClock ++ [.endOrders b.buyer (some target)] }) }))))

/-! ### Buyers, credit and invoices -/

/-- R99, R100, R102, R106: BUYER SET creates or updates a record, BUYER REMOVE frees one without lines, logging a bound buyer out REMOVED,
BLOCK and UNBLOCK set the blocked flag; the clocks are told of a change to a buyer whose order mark is yes, and of the end of a removed
buyer's orders. -/
def Obligations.BuyerRecords : Prop :=
  (∀ (l : LinkId) (raw : List Byte) (s : State), s.Takes l .settlement .buyerSet raw →
    let b := (parse raw).body
    let id := fieldAt b 0 3
    let given := fieldAt b 3 6
    let limit := min given 1000000000000
    let members := clockSetOf (fieldAt b 9 1)
    let point := fieldAt b 10 2
    let formed := 1 ≤ id ∧ id ≤ 999999 ∧ point ≤ 4095
    let set (isNew : Bool) (exposure : Nat) (buyers : Table Buyer) (notices : List ToClock) : State := s.after { s.part with
      links := s.part.answered l raw (.ack (.buyerSet id isNew (decide (1000000000000 < given)) exposure)),
      account := { s.part.account with buyers := buyers },
      channels := s.part.channels.map (fun h => { h with accountToClock := h.accountToClock ++ notices }) }
    (¬ formed → exec (.buyerSet l) s = .next (s.refusing l raw .malformed)) ∧
    (formed → s.part.buyer id = none → 1024 ≤ s.part.account.buyers.length →
      exec (.buyerSet l) s = .next (s.refusing l raw .noRoom)) ∧
    (formed → s.part.buyer id = none → s.part.account.buyers.length < 1024 →
      exec (.buyerSet l) s = .next (set true 0 (s.part.account.buyers.put id
        { limit := limit, exposure := 0, lines := 0, members := members, point := point, blocked := false, desk := none,
          openInvoice := none, sequence := 1, orderMark := false }) [])) ∧
    (∀ r, formed → s.part.buyer id = some r →
      exec (.buyerSet l) s = .next (set false r.exposure
        (s.part.account.buyers.modify id (fun x => { x with limit := limit, members := members, point := point }))
        (if r.orderMark then [.notice ⟨id, r.blocked, point, members, none⟩] else [])))) ∧
  (∀ (l : LinkId) (raw : List Byte) (s : State), s.Takes l .settlement .buyerRemove raw →
    let id := fieldAt (parse raw).body 0 3
    let a := s.part.account
    let told (ms : List ToClock) : PerClock Channels :=
      s.part.channels.map (fun h => { h with accountToClock := h.accountToClock ++ ms })
    (s.part.buyer id = none → exec (.buyerRemove l) s = .next (s.refusing l raw .unknownBuyer)) ∧
    (∀ r, s.part.buyer id = some r →
      (0 < r.lines → exec (.buyerRemove l) s = .next (s.refusing l raw .busy)) ∧
      (r.lines = 0 → r.desk = none → exec (.buyerRemove l) s = .next (s.after { s.part with
        links := s.part.answered l raw (.ack .plain), account := { a with buyers := a.buyers.del id },
        channels := told (if r.orderMark then [.endOrders id none] else []) })) ∧
      (∀ i, r.lines = 0 → r.desk = some i →
        exec (.buyerRemove l) s = .next (s.after { s.part with
          links := (s.part.deskTold (s.part.unqueued l) i (fun d => .loggedOut d .removed id)).upd l
            (fun k => k.putUrgent ⟨(parse raw).tag, .ack .plain⟩),
          account := { a with buyers := a.buyers.del id, desks := a.desks.del i },
          channels := told [.endOrders id (s.part.deskTarget i)] })))) ∧
  (∀ (l : LinkId) (raw : List Byte) (flag : Bool) (s : State),
    let k : Kind := if flag then .block else .unblock
    s.Takes l .settlement k raw →
    let id := fieldAt (parse raw).body 0 3
    (s.part.buyer id = none → exec (k.command l) s = .next (s.refusing l raw .unknownBuyer)) ∧
    (∀ r, s.part.buyer id = some r → exec (k.command l) s = .next (s.after { s.part with
      links := s.part.answered l raw (.ack (.blocked id flag)),
      account := { s.part.account with
        buyers := if r.blocked = flag then s.part.account.buyers
                  else s.part.account.buyers.modify id (fun x => { x with blocked := flag }) },
      channels := s.part.channels.map (fun h => { h with
        accountToClock :=
          if r.blocked ≠ flag ∧ r.orderMark = true then
            h.accountToClock ++ [.notice ⟨id, flag, r.point, r.members, none⟩]
          else h.accountToClock }) })))

/-- R101, R81, R82: CREDIT LIMIT, in every hall state and with nothing but the limit and the answer, and a buyer whose exposure is above the
new limit has every reservation refused CREDIT. TARIFF LOAD replaces the 16 entries, each value lowered to its bound, raises the
generation, and lists what it clamped. -/
def Obligations.CreditLimitAndTariff : Prop :=
  (∀ (l : LinkId) (raw : List Byte) (s : State), s.Takes l .settlement .creditLimit raw →
     let id := fieldAt (parse raw).body 0 3
     let given := fieldAt (parse raw).body 3 6
     let limit := if 1000000000000 < given then 1000000000000 else given
     let a : Account := { s.part.account with buyers := s.part.account.buyers.modify id (fun x => { x with limit := limit }) }
     (s.part.buyer id = none → exec (.creditLimit l) s = .next (s.refusing l raw .unknownBuyer)) ∧
     (∀ r, s.part.buyer id = some r →
       exec (.creditLimit l) s = .next (s.after { s.part with
         links := s.part.answered l raw (.ack (.creditLimit id limit (decide (1000000000000 < given)) r.exposure)),
         account := a }) ∧
       (limit < r.exposure → r.blocked = false →
         ∀ v : Reservation, v.buyer = id → a.refusesReservation v = some .credit))) ∧
  (∀ (l : LinkId) (raw : List Byte) (s : State), s.Takes l .settlement .tariffLoad raw →
     let field (cls i : Nat) : Nat := fieldAt (parse raw).body (6 * cls + 2 * i) 2
     let g := if s.part.account.generation = 65535 then 1 else s.part.account.generation + 1
     let es : List TariffEntry := (List.range 16).map (fun n => ⟨min (field n 0) 2500, min (field n 1) 9999, min (field n 2) 9999⟩)
     ∃ items, exec (.tariffLoad l) s = .next (s.after { s.part with
         links := s.part.answered l raw (.tariffLoaded g items),
         account := { s.part.account with tariff := some es, generation := g } }) ∧
       ∀ n i, (n, i) ∈ items ↔ n < 16 ∧ (match i with
         | .rate => 2500 < field n 0
         | .container => 9999 < field n 1
         | .lineFee => 9999 < field n 2))

/-- R125, R126, R129 to R132: CLOSE INVOICE closes the buyer's open invoice, which begins to be sent at once where the start check lets it,
and SETTLED releases an AWAITING invoice and its lines; each with its refusals. -/
def Obligations.InvoicesClosedAndSettled : Prop :=
  (∀ (l : LinkId) (raw : List Byte) (s : State), s.Takes l .settlement .closeInvoice raw →
    let id := fieldAt (parse raw).body 0 3
    let a := s.part.account
    (s.part.buyer id = none → exec (.closeInvoice l) s = .next (s.refusing l raw .unknownBuyer)) ∧
    (∀ r, s.part.buyer id = some r →
      (r.openInvoice = none → exec (.closeInvoice l) s = .next (s.refusing l raw .noneOpen)) ∧
      (∀ n v, r.openInvoice = some n → a.invoice n = some v →
        (a.cursor.isSome = true ∨ (s.part.linkOf .settlement = some l ∧ (s.part.links.get l).peerWait = true) →
          exec (.closeInvoice l) s = .next (s.after { s.part with
            links := s.part.answered l raw (.ack (.closed n v.lines.length v.total)), account := a.closes .requested n })) ∧
        (s.part.linkOf .settlement = some l → a.cursor = none → (s.part.links.get l).peerWait = false → a.InvoicesOk →
          let sent := (a.closes .requested n).sends (32 - (s.part.links.get l).bulk.length) (a.closes .requested n).due
          exec (.closeInvoice l) s = .next (s.after { s.part with
            links := (s.part.unqueued l).upd l (fun k => ({ k with bulk := k.bulk ++ sent.2 } : Link).putUrgent
              ⟨(parse raw).tag, .ack (.closed n v.lines.length v.total)⟩),
            account := sent.1 }))))) ∧
  (∀ (l : LinkId) (raw : List Byte) (s : State), s.Takes l .settlement .settled raw →
    let b := (parse raw).body
    let n : InvoiceNumber := ⟨fieldAt b 0 2, fieldAt b 2 3, fieldAt b 5 2⟩
    let a := s.part.account
    ((∀ v, a.invoice n = some v → v.state ≠ .awaiting) → exec (.settled l) s = .next (s.refusing l raw .unknownInvoice)) ∧
    (∀ v r, a.invoice n = some v → v.state = .awaiting → s.part.buyer n.buyer = some r →
      ∃ lines : Table Line, exec (.settled l) s = .next (s.after { s.part with
          links := s.part.answered l raw (.ack (.settled n v.lines.length n.buyer (r.exposure - v.total))),
          account := { a with
            buyers := a.buyers.modify n.buyer (fun x =>
              { x with exposure := x.exposure - v.total, lines := x.lines - v.lines.length }),
            lines := lines, settleQueue := a.settleQueue.filter (fun x => decide (x ≠ n)),
            invoices := a.invoices.filter (fun x => decide (x.number ≠ n)),
            storeLow := if 64 ≤ 4096 - lines.length then false else a.storeLow } }) ∧
        (∀ i, lines.find i = if i ∈ v.lines then none else a.lines.find i)))

/-- R129, R130, R160: a GO on the SETTLEMENT link makes the start check: with no invoice being sent, the CLOSED invoices of the queue begin
one after another, each with its header and its lines in order, as far as the bulk queue has room. Stated for the first of them in full: it
is AWAITING once all its messages are placed, and SENDING with the cursor behind the last one placed till then. -/
def Obligations.InvoicesSent : Prop :=
  (∀ (l : LinkId) (s : State), s.pinLow = false → s.part.linkOf .settlement = some l → s.part.account.InvoicesOk →
    exec (.goMarker l) s = .next (s.after ({ s.part with
      links := s.part.links.upd l (fun k => { k.heard s.part.now with peerWait := false }) } : Part).startsSending)) ∧
  (∀ (l : LinkId) (n : InvoiceNumber) (v : Invoice) (pre post : List InvoiceNumber) (s : State), s.pinLow = false →
    s.part.linkOf .settlement = some l → (s.part.links.get l).bulk.length ≤ 32 → s.part.account.cursor = none →
    s.part.account.settleQueue = pre ++ n :: post → s.part.account.invoice n = some v → v.state = .closed →
    (∀ x ∈ pre ++ post, x ≠ n ∧ ∀ y, s.part.account.invoice x = some y → y.state ≠ .closed) →
    (∀ i ∈ v.lines, (s.part.account.lines.find i).isSome = true) →
    let room := 32 - (s.part.links.get l).bulk.length
    let header : OutMsg := ⟨none, .invoiceHeader n v.cause v.lines.length v.total v.sentBefore⟩
    let message (i : Nat) : Option OutMsg := (s.part.account.lines.find i).map (fun x => ⟨none, .invoiceLine i x⟩)
    ∃ u, exec (.goMarker l) s = .next u ∧
      u.part = { s.part with
        links := s.part.links.upd l (fun k => { k.heard s.part.now with
          peerWait := false, bulk := k.bulk ++ (header :: v.lines.filterMap message).take room }),
        account := u.part.account } ∧
      u.part.account = { s.part.account with invoices := u.part.account.invoices, cursor := u.part.account.cursor } ∧
      (∀ x, x ≠ n → u.part.account.invoice x = s.part.account.invoice x) ∧
      (v.lines.length + 1 ≤ room →
        u.part.account.cursor = none ∧
        u.part.account.invoice n = some { v with state := .awaiting, sentBefore := true }) ∧
      (room < v.lines.length + 1 →
        u.part.account.cursor = some ⟨n, decide (room = 0), room - 1, v.sentBefore⟩ ∧
        u.part.account.invoice n = some { v with state := .sending, sentBefore := true }))

/-- R115 to R122, R124, R125, R129: a reservation is refused by the first condition met, with nothing else changed, or granted: the line is
filed in the lowest free place with its figures, on the buyer's open invoice or on a new one, whose sequence skips the numbers in the pool;
a 48th line closes the invoice, which the start check may send; STORE_LOW goes to every console, in clock order, when fewer than 64 places
are left for the first time; the exposure rises by the line total; GRANT names the place. -/
def Obligations.ReservationJudged : Prop :=
  ∀ (c : ClockId) (r : Reservation) (rest : List ToAccount) (s : State), s.pinLow = false →
    (s.part.channels.get c).clockToAccount = .reservation r :: rest → s.part.TablesOk → s.part.account.InvoicesOk →
    let a := s.part.account
    let f := a.figures r
    let refused (cause : Cause) : Prop := exec (.reservation c) s = .next (s.after { s.part with
      channels := s.part.channels.upd c (fun h => { h with
        clockToAccount := rest, accountToClock := h.accountToClock ++ [.refuse cause] }) })
    (s.part.buyer r.buyer = none → refused .blocked) ∧
    (∀ b, s.part.buyer r.buyer = some b →
      (b.blocked = true → refused .blocked) ∧
      (b.blocked = false → b.limit < b.exposure + f.total → refused .credit) ∧
      (b.blocked = false → b.exposure + f.total ≤ b.limit →
        (4096 ≤ a.lines.length → refused .storeFull) ∧
        (a.lines.length < 4096 → b.openInvoice = none → 256 ≤ a.invoices.length → refused .noInvoice) ∧
        (a.lines.length < 4096 → b.openInvoice ≠ none ∨ a.invoices.length < 256 →
          let n : InvoiceNumber := b.openInvoice.getD ⟨a.hall.day, r.buyer, b.sequence⟩
          let pool : List Invoice :=
            if b.openInvoice = none then a.invoices ++ [⟨n, .opened, [], 0, none, false⟩] else a.invoices
          ∀ v ∈ pool, v.number = n →
          ∃ place sequence, 1 ≤ place ∧ place ≤ 4096 ∧ a.lines.find place = none ∧
            (∀ i ∈ List.range place, i ≠ 0 → (a.lines.find i).isSome = true) ∧
            (if b.openInvoice = none then
               FirstFree (fun q => ⟨a.hall.day, r.buyer, q⟩ ∈ pool.map Invoice.number)
                 (if b.sequence = 65535 then 1 else b.sequence + 1) sequence
             else sequence = b.sequence) ∧
            (let line : Line :=
               { invoice := n, number := v.lines.length + 1, lot := r.lot, clock := c, run := r.run, product := r.product,
                 grower := r.grower, cls := r.cls, units := r.quantity, stems := r.stems, price := r.price,
                 goods := f.goods, commission := f.commission, container := f.container, lineFee := f.lineFee,
                 total := f.total, generation := a.generation,
                 awardTime := (s.part.now - a.hall.mark.getD 0) % 4294967296 }
             let filed : Account := { a with
               lines := a.lines.put place line,
               invoices := pool.map (fun x =>
                 if x.number = n then { x with lines := x.lines ++ [place], total := x.total + f.total } else x),
               openList := if b.openInvoice = none then a.openList ++ [n] else a.openList,
               buyers := a.buyers.modify r.buyer (fun x => { x with
                 exposure := x.exposure + f.total, lines := x.lines + 1, openInvoice := some n, sequence := sequence }) }
             let closed : Part :=
               if 48 ≤ v.lines.length + 1 then ({ s.part with account := filed.closes .linesFull n } : Part).startsSending
               else { s.part with account := filed }
             let free := 4096 - (a.lines.length + 1)
             let warns : Bool := decide (free < 64) && !a.storeLow
             exec (.reservation c) s = .next (s.after { closed with
               account := if warns then { closed.account with storeLow := true } else closed.account,
               links := if warns then
                   clockIds.foldl (fun ls d => s.part.consoleTold ls d [.storeLow free]) closed.links
                 else closed.links,
               channels := s.part.channels.upd c (fun h => { h with
                 clockToAccount := rest, accountToClock := h.accountToClock ++ [.grant place] }) })))))

/-! ### The hall day -/

/-- R122, R163 to R165, R167: OPEN DAY and CLOSE DAY with their refusals: the hall record, the buyers' sequences, raised past the invoices of
the day in the pool, the notice to every clock, DAY STATE to the SETTLEMENT, CONSOLE and SUPERVISION links, and ACK last, the model's order
(log 13). -/
def Obligations.DayOpensAndCloses : Prop :=
  ∀ (l : LinkId) (raw : List Byte) (s : State),
    let a := s.part.account
    let noticed (h : HallState) : PerClock Channels :=
      s.part.channels.map (fun x => { x with accountToClock := x.accountToClock ++ [.hall h] })
    let told (ack : AckInfo) (h : HallState) (day : Nat) : PerLink Link :=
      (s.part.dayTold (s.part.unqueued l) ⟨h, day, a.hall.activeCount, a.lines.length, a.settleQueue.length, none, none⟩).upd l
        (fun k => k.putUrgent ⟨(parse raw).tag, .ack ack⟩)
    (s.Takes l .supervision .openDay raw →
      let day := fieldAt (parse raw).body 0 2
      (day = 0 → exec (.openDay l) s = .next (s.refusing l raw .malformed)) ∧
      (day ≠ 0 → a.hall.state ≠ .closed → exec (.openDay l) s = .next (s.refusing l raw .busy)) ∧
      (day ≠ 0 → a.hall.state = .closed → a.generation = 0 →
        exec (.openDay l) s = .next (s.refusing l raw .noTariff)) ∧
      (day ≠ 0 → a.hall.state = .closed → a.generation ≠ 0 → s.part.TablesOk →
        ∃ u, exec (.openDay l) s = .next u ∧
          u = s.after { s.part with
            links := told (.day day) .opened day, channels := noticed .opened,
            account := { a with
              hall := { a.hall with state := .opened, day := day, mark := some s.part.now },
              buyers := a.buyers.map (fun e =>
                (e.1, { e.2 with sequence := ((u.part.buyer e.1).map Buyer.sequence).getD 0 })) } } ∧
          (∀ e ∈ a.buyers, ∃ x ∈ (u.part.buyer e.1).toList,
            FirstFree (fun q => ⟨day, e.1, q⟩ ∈ a.invoices.map Invoice.number) 1 x.sequence))) ∧
    (s.Takes l .supervision .closeDay raw →
      (a.hall.state = .closed → exec (.closeDay l) s = .next (s.refusing l raw .hallClosed)) ∧
      (a.hall.state = .closing → exec (.closeDay l) s = .next (s.refusing l raw .busy)) ∧
      (a.hall.state = .opened → exec (.closeDay l) s = .next (s.after { s.part with
        links := told .plain .closing a.hall.day, channels := noticed .closing,
        account := { a with hall := { a.hall with state := .closing, answered := PerClock.const false } } })))

/-- R113, R127, R129, R163, R166, R167: an activity report is written in the hall record. When every clock of a CLOSING hall has answered
and is quiet the hall is CLOSED: every desk is unbound, in index order (log 21), with LOGGED OUT DAY_CLOSED; every order mark is cleared;
every OPEN invoice is closed, in the order of the open list, behind those of the settlement queue, and the start check is made; the clocks
are noticed; and DAY STATE goes out with the counts of invoices closed and bindings dropped. -/
def Obligations.ActivityReported : Prop :=
  ∀ (c : ClockId) (active : Bool) (answers : Option HallState) (rest : List ToAccount) (s : State), s.pinLow = false →
    (s.part.channels.get c).clockToAccount = .activity active answers :: rest →
    let a := s.part.account
    let hall : Hall := { a.hall with
      active := a.hall.active.upd c (fun _ => active),
      answered := a.hall.answered.upd c (fun x => x || (decide (a.hall.state = .closing) && decide (answers = some .closing))) }
    let taken : PerClock Channels := s.part.channels.upd c (fun h => { h with clockToAccount := rest })
    let resting := a.hall.state = .closing ∧ ∀ d, hall.answered.get d = true ∧ hall.active.get d = false
    (¬ resting → exec (.activityReport c) s = .next (s.after { s.part with
      channels := taken, account := { a with hall := hall } })) ∧
    (resting → s.part.TablesOk → s.part.BindingsOk → a.InvoicesOk →
      let closed : Account := { a with
        hall := { hall with state := .closed }, desks := [], openList := [], settleQueue := a.settleQueue ++ a.openList,
        buyers := a.buyers.mapAll (fun b => { b with desk := none, orderMark := false, openInvoice := none }),
        invoices := a.invoices.map (fun v =>
          if v.state = .opened then { v with state := .closed, cause := some .dayClosed } else v) }
      let left : PerLink Link := a.desks.foldl
        (fun ls e => s.part.deskTold ls e.1 (fun d => .loggedOut d .dayClosed e.2.buyer)) s.part.links
      let sent := ({ s.part with links := left, account := closed } : Part).startsSending
      exec (.activityReport c) s = .next (s.after { sent with
        links := s.part.dayTold sent.links
          ⟨.closed, a.hall.day, 0, a.lines.length, a.settleQueue.length + a.openList.length, some a.openList.length,
           some a.desks.length⟩,
        channels := taken.map (fun h => { h with accountToClock := h.accountToClock ++ [.hall .closed] }) }))

/-! ### The Display Unit and the mirror -/

/-- R137 to R143, R145, R146: the events of a clock. A report is copied into the view. A state or award event that changes a compared field
composes a frame at once and sets the cadence; a stride event composes one when the stride count reaches the divisor; a divisor event sets
the divisor. Each frame composed is offered to the DISPLAY links that show the clock. Awards are counted and flags set on every UP DESK
GROUP link, with CHANGE NOTICE where a flag was clear. -/
def Obligations.DisplayEventsTaken : Prop :=
  ∀ (c : ClockId) (e : ClockEvent) (rest : List ClockEvent) (s : State), s.pinLow = false →
    (s.part.channels.get c).clockToDisplay = e :: rest → s.part.DisplayOk →
    let d := s.part.displayClock c
    let view (r : ClockReport) : View :=
      match r.lot with
      | none => ⟨r.state, r.run, 0, 0, 0, 0, 0, 0, 0, 0, r.position, r.price, r.lastAward, d.view.nextLot⟩
      | some t => ⟨r.state, r.run, t.lot, t.product, t.grower, t.cls, t.remaining, t.stems, t.minPurchase, t.minPrice,
                   r.position, r.price, r.lastAward, d.view.nextLot⟩
    let frame (v : View) (q : Nat) (tier : Tier) : Frame :=
      ⟨c, q, v.state, v.lot, v.product, v.grower, v.cls, v.remaining, v.stems, v.minPurchase, v.run, v.position, v.price,
       v.floorFlag, v.lastAward, tier⟩
    let q := if d.sequence = 65535 then 1 else d.sequence + 1
    let same (v : View) : Prop :=
      frame v 0 .fast = { d.frame with sequence := 0, tier := .fast, position := v.position, price := v.price }
    let fast (v : View) : Prop := v.state = .running ∨ v.state = .floor ∨ v.state = .window
    let flagged (r : ClockReport) : Prop := r.state = .idle ∨ r.state = .ready ∨ r.state = .held ∨ d.view.run < r.run ∨
      (r.run = 1 ∧ d.view.run = 65535)
    let becomes (command : Instr) (d' : DisplayClock) (f : Accumulator → Accumulator)
        (links : LinkId → Link → Link) : Prop :=
      ∃ u, exec command s = .next u ∧
        u.part = { s.part with
          links := u.part.links,
          channels := s.part.channels.upd c (fun h => { h with clockToDisplay := rest }),
          display := { s.part.display with
            clocks := s.part.display.clocks.upd c (fun _ => d'), sets := u.part.display.sets } } ∧
        ∀ l, u.part.links.get l = links l (s.part.links.get l) ∧
          u.part.display.sets.get l = (s.part.display.sets.get l).map (fun t => t.upd c f)
    let compared (command : Instr) (r : ClockReport) (f : Accumulator → Accumulator)
        (told : LinkId → Link → Link) : Prop :=
      let v := view r
      (same v → becomes command { d with view := v } f told) ∧
      (¬ same v → fast v → becomes command { d with
        view := v, frame := frame v q .fast, sequence := q, tier := .fast, lastChange := s.part.now, strideCount := 0,
        frameTimer := none } f (fun l k => told l (s.part.frameOffered (frame v q .fast) l k))) ∧
      (¬ same v → ¬ fast v → becomes command { d with
        view := v, frame := frame v q .steady, sequence := q, tier := .steady, lastChange := s.part.now, strideCount := 0,
        frameTimer := some (s.part.now + 250) } f (fun l k => told l (s.part.frameOffered (frame v q .steady) l k)))
    (∀ r, e = .state r →
      (flagged r → compared (.stateEvent c) r (fun x => { x with changed := true }) (s.part.noticed c)) ∧
      (¬ flagged r → compared (.stateEvent c) r id (fun _ k => k))) ∧
    (∀ r n, e = .award r n →
      compared (.awardEvent c) r (fun x => ⟨min 65535 (x.units + n), min 255 (x.awards + 1), true⟩) (s.part.noticed c)) ∧
    (∀ r, e = .stride r →
      (d.tier ≠ .fast → becomes (.strideEvent c) { d with view := view r } id (fun _ k => k)) ∧
      (d.tier = .fast → d.strideCount + 1 < d.divisor →
        becomes (.strideEvent c) { d with view := view r, strideCount := d.strideCount + 1 } id (fun _ k => k)) ∧
      (d.tier = .fast → d.divisor ≤ d.strideCount + 1 →
        becomes (.strideEvent c) { d with view := view r, frame := frame (view r) q .fast, sequence := q, strideCount := 0 } id
          (s.part.frameOffered (frame (view r) q .fast)))) ∧
    (∀ r n, e = .divisor r n →
      becomes (.divisorEvent c) { d with view := view r, divisor := n, strideCount := 0 } id (fun _ k => k))

/-- R138, R146: an event of the Supply Unit copies the next lot; one that reports a withdrawal sets the flags, and each flag that was
clear places a CHANGE NOTICE on the urgent queue of its link. -/
def Obligations.SupplyEventTaken : Prop :=
  ∀ (c : ClockId) (e : SupplyEvent) (rest : List SupplyEvent) (s : State), s.pinLow = false →
    (s.part.channels.get c).supplyToDisplay = e :: rest →
    ∃ u, exec (.supplyUnitEvent c) s = .next u ∧
      u.part = { s.part with
        links := u.part.links, display := u.part.display,
        channels := s.part.channels.upd c (fun h => { h with supplyToDisplay := rest }) } ∧
      u.part.display = { s.part.display with
        clocks := s.part.display.clocks.upd c (fun d => { d with view := { d.view with nextLot := e.nextLot } }),
        sets := u.part.display.sets } ∧
      (e.withdrawal = false → u.part.links = s.part.links ∧ u.part.display.sets = s.part.display.sets) ∧
      (e.withdrawal = true → ∀ l,
        u.part.display.sets.get l =
          (s.part.display.sets.get l).map (fun t => t.upd c (fun x => { x with changed := true })) ∧
        u.part.links.get l = s.part.noticed c l (s.part.links.get l))

/-- R140, R142, R143: at the end of a frame timer a frame is composed in the tier found at that moment, the timer starts again with that
tier's period, and the frame is offered to every UP DISPLAY link that shows the clock, in place of an older one not yet sent. The time base
moves on to the timer's end (log 3). -/
def Obligations.FrameTimerEnds : Prop :=
  ∀ (c : ClockId) (t : Nat) (s : State), s.pinLow = false → (s.part.displayClock c).frameTimer = some t →
    let d := s.part.displayClock c
    let v := d.view
    let now := max s.part.now t
    let since := now - d.lastChange
    let tier : Tier := if since < 10000 then .steady else if since < 60000 then .slow else .dormant
    let period := if since < 10000 then 250 else if since < 60000 then 1000 else 5000
    let q := if d.sequence = 65535 then 1 else d.sequence + 1
    let frame : Frame :=
      ⟨c, q, v.state, v.lot, v.product, v.grower, v.cls, v.remaining, v.stems, v.minPurchase, v.run, v.position, v.price,
       v.floorFlag, v.lastAward, tier⟩
    ∃ u, exec (.frameTimerExpiry c) s = .next u ∧
      u.part = { s.part with
        links := u.part.links, now := now,
        display := { s.part.display with clocks := s.part.display.clocks.upd c (fun d =>
          { d with frame := frame, sequence := q, tier := tier, frameTimer := some (now + period) }) } } ∧
      (∀ l, u.part.links.get l = s.part.frameOffered frame l (s.part.links.get l))

/-- R147, R169, R170: SNAPSHOT REQUEST reads the view of its clock, with the price 0 in IDLE and READY, and the set of its link, clears that
set, and places SNAPSHOT on the bulk queue. Bid and outcome reports become BID COPY and OUTCOME COPY on the bulk queue of the SUPERVISION
link when its mirror holds their clock, and nothing otherwise. -/
def Obligations.SnapshotsAndCopies : Prop :=
  (∀ (l : LinkId) (raw : List Byte) (g : DeskGroup) (t : PerClock Accumulator) (c : ClockId) (s : State),
     s.Takes l .deskGroup .snapshotRequest raw → s.part.account.groups.get l = some g →
     s.part.display.sets.get l = some t →
     (parse raw).clock = some (clockNumber c) ∨ ((parse raw).clock = none ∧ g.defaultClock = c) →
     let v := (s.part.displayClock c).view
     let a := t.get c
     exec (.snapshotRequest l) s = .next (s.after { s.part with
       links := s.part.links.upd l (fun k => k.leave.putBulk ⟨(parse raw).tag, .snapshot
         ⟨c, v.state, v.run, v.lot, v.product, v.remaining, if v.state = .idle ∨ v.state = .ready then 0 else v.price,
          v.position, v.nextLot, a.units, a.awards⟩⟩),
       display := { s.part.display with
         sets := s.part.display.sets.upd l (fun _ => some (t.upd c (fun _ => ⟨0, 0, false⟩))) } })) ∧
  (∀ (src : ReportSource) (x : Report) (rest : List Report) (s : State), s.pinLow = false →
     (match src with
      | .account => s.part.accountReports = x :: rest
      | .clock c => (s.part.channels.get c).clockReports = x :: rest) →
     let taken (links : PerLink Link) : State := s.after { s.part with
       links := links,
       accountReports := match src with | .account => rest | .clock _ => s.part.accountReports,
       channels := match src with
         | .account => s.part.channels
         | .clock c => s.part.channels.upd c (fun h => { h with clockReports := rest }) }
     let command : Instr := match x with | .bid _ => .bidCopy src | .outcome _ => .outcomeCopy src
     let clock : ClockId := match x with | .bid r => r.clock | .outcome r => r.clock
     let body : OutBody := match x with | .bid r => .bidCopy r | .outcome r => .outcomeCopy r
     (s.part.display.mirror = none → exec command s = .next (taken s.part.links)) ∧
     (∀ set, s.part.display.mirror = some set →
       (set.get clock = false → exec command s = .next (taken s.part.links)) ∧
       (∀ l, set.get clock = true → s.part.linkOf .supervision = some l →
         exec command s = .next (taken (s.part.links.upd l (fun k => k.putBulk ⟨none, body⟩))))))
end

