-- ==== Sys2Proof/Laws/Collections.lean ====
section
/-! SUPPORT. Laws/Collections.lean: the containers of the state: reading after an update, and the canonical form of tables. -/

namespace Sys2Proof.Machine

/-! ### Per clock and per link -/

@[simp] theorem PerClock.get_const {α : Type} (a : α) (c : ClockId) : (PerClock.const a).get c = a := by cases c <;> rfl
@[simp] theorem PerLink.get_const {α : Type} (a : α) (l : LinkId) : (PerLink.const a).get l = a := by cases l <;> rfl

@[simp] theorem PerClock.get_upd_self {α : Type} (v : PerClock α) (c : ClockId) (f : α → α) :
    (v.upd c f).get c = f (v.get c) := by cases c <;> rfl

@[simp] theorem PerLink.get_upd_self {α : Type} (v : PerLink α) (l : LinkId) (f : α → α) :
    (v.upd l f).get l = f (v.get l) := by cases l <;> rfl

theorem PerClock.get_upd {α : Type} (v : PerClock α) (c d : ClockId) (f : α → α) :
    (v.upd c f).get d = if d = c then f (v.get d) else v.get d := by cases c <;> cases d <;> rfl

theorem PerLink.get_upd {α : Type} (v : PerLink α) (l k : LinkId) (f : α → α) :
    (v.upd l f).get k = if k = l then f (v.get k) else v.get k := by cases l <;> cases k <;> rfl

theorem PerClock.get_upd_ne {α : Type} (v : PerClock α) {c d : ClockId} (f : α → α) (h : d ≠ c) :
    (v.upd c f).get d = v.get d := by simp [PerClock.get_upd, h]

theorem PerLink.get_upd_ne {α : Type} (v : PerLink α) {l k : LinkId} (f : α → α) (h : k ≠ l) :
    (v.upd l f).get k = v.get k := by simp [PerLink.get_upd, h]

@[simp] theorem PerClock.upd_upd {α : Type} (v : PerClock α) (c : ClockId) (f g : α → α) :
    (v.upd c f).upd c g = v.upd c (fun a => g (f a)) := by cases c <;> rfl

@[simp] theorem PerLink.upd_upd {α : Type} (v : PerLink α) (l : LinkId) (f g : α → α) :
    (v.upd l f).upd l g = v.upd l (fun a => g (f a)) := by cases l <;> rfl

theorem PerClock.upd_congr {α : Type} (v : PerClock α) (c : ClockId) (f g : α → α) (h : f (v.get c) = g (v.get c)) :
    v.upd c f = v.upd c g := by cases c <;> simp_all [PerClock.upd, PerClock.get]

theorem PerLink.upd_congr {α : Type} (v : PerLink α) (l : LinkId) (f g : α → α) (h : f (v.get l) = g (v.get l)) :
    v.upd l f = v.upd l g := by cases l <;> simp_all [PerLink.upd, PerLink.get]

theorem PerClock.upd_eq_self {α : Type} (v : PerClock α) (c : ClockId) (f : α → α) (h : f (v.get c) = v.get c) :
    v.upd c f = v := by cases c <;> simp_all [PerClock.upd, PerClock.get]

theorem PerLink.upd_eq_self {α : Type} (v : PerLink α) (l : LinkId) (f : α → α) (h : f (v.get l) = v.get l) :
    v.upd l f = v := by cases l <;> simp_all [PerLink.upd, PerLink.get]

theorem PerLink.ext_get {α : Type} {v w : PerLink α} (h : ∀ l, v.get l = w.get l) : v = w := by
  obtain ⟨⟩ := v
  obtain ⟨⟩ := w
  have h0 := h .l0
  have h1 := h .l1
  have h2 := h .l2
  have h3 := h .l3
  have h4 := h .l4
  have h5 := h .l5
  have h6 := h .l6
  have h7 := h .l7
  simp_all [PerLink.get]

@[simp] theorem mem_linkIds (l : LinkId) : l ∈ linkIds := by cases l <;> decide
@[simp] theorem mem_clockIds (c : ClockId) : c ∈ clockIds := by cases c <;> decide
@[simp] theorem clockOf_clockNumber (c : ClockId) : clockOf (clockNumber c) = some c := by cases c <;> rfl
@[simp] theorem linkOf_linkNumber (l : LinkId) : linkOf (linkNumber l) = some l := by cases l <;> rfl

/-! ### Tables: reading after an update -/

@[simp] theorem Table.find_put_self {α : Type} (t : Table α) (k : Nat) (v : α) : Table.find (Table.put t k v) k = some v := by
  induction t with
  | nil => simp [Table.put, Table.find]
  | cons e rest ih =>
    obtain ⟨i, w⟩ := e
    by_cases h1 : k < i
    · simp [Table.put, Table.find, h1]
    · by_cases h2 : k = i
      · simp [Table.put, Table.find, h2]
      · have h3 : ¬ i = k := fun h => h2 h.symm
        simp [Table.put, Table.find, h1, h2, h3, ih]

theorem Table.find_put_ne {α : Type} (t : Table α) {k j : Nat} (v : α) (h : j ≠ k) :
    Table.find (Table.put t k v) j = Table.find t j := by
  have hk : ¬ k = j := fun e => h e.symm
  induction t with
  | nil => simp [Table.put, Table.find, hk]
  | cons e rest ih =>
    obtain ⟨i, w⟩ := e
    by_cases h1 : k < i
    · simp [Table.put, Table.find, h1, hk]
    · by_cases h2 : k = i
      · subst h2
        simp [Table.put, Table.find, hk]
      · simp [Table.put, Table.find, h1, h2, ih]

theorem Table.find_modify {α : Type} (t : Table α) (k j : Nat) (f : α → α) :
    Table.find (Table.modify t k f) j = if j = k then (Table.find t j).map f else Table.find t j := by
  induction t with
  | nil => simp [Table.modify, Table.find]
  | cons e rest ih =>
    obtain ⟨i, w⟩ := e
    simp only [Table.modify] at ih
    by_cases h1 : i = k <;> by_cases h2 : i = j <;> by_cases h3 : j = k <;>
      simp_all [Table.modify, Table.find]

@[simp] theorem Table.find_modify_self {α : Type} (t : Table α) (k : Nat) (f : α → α) :
    Table.find (Table.modify t k f) k = (Table.find t k).map f := by simp [Table.find_modify]

theorem Table.find_modify_ne {α : Type} (t : Table α) {k j : Nat} (f : α → α) (h : j ≠ k) :
    Table.find (Table.modify t k f) j = Table.find t j := by simp [Table.find_modify, h]

theorem Table.find_del {α : Type} (t : Table α) (k j : Nat) :
    Table.find (Table.del t k) j = if j = k then none else Table.find t j := by
  induction t with
  | nil => simp [Table.del, Table.find]
  | cons e rest ih =>
    obtain ⟨i, w⟩ := e
    simp only [Table.del] at ih
    by_cases h1 : i = k <;> by_cases h2 : i = j <;> by_cases h3 : j = k <;>
      simp_all [Table.del, Table.find]

@[simp] theorem Table.find_del_self {α : Type} (t : Table α) (k : Nat) : Table.find (Table.del t k) k = none := by
  simp [Table.find_del]

/-- A record read from a table is one of its entries. -/
theorem Table.mem_of_find {α : Type} {t : Table α} {k : Nat} {v : α} (h : Table.find t k = some v) : (k, v) ∈ t := by
  induction t with
  | nil => simp [Table.find] at h
  | cons e rest ih =>
    obtain ⟨i, w⟩ := e
    by_cases hi : i = k
    · simp [Table.find, hi] at h
      subst h; subst hi
      exact List.mem_cons_self
    · simp [Table.find, hi] at h
      exact List.mem_cons_of_mem _ (ih h)

theorem Table.find_mapAll {α : Type} (t : Table α) (f : α → α) (j : Nat) :
    Table.find (Table.mapAll t f) j = (Table.find t j).map f := by
  induction t with
  | nil => rfl
  | cons e rest ih =>
    obtain ⟨i, w⟩ := e
    simp only [Table.mapAll] at ih
    by_cases h : i = j <;> simp_all [Table.mapAll, Table.find]

/-! ### Tables: the canonical form -/

/-- The keys of a table strictly rise exactly when its form is canonical. -/
theorem Table.rising_iff {α : Type} (t : Table α) : Table.rising t = true ↔ (t.map (·.1)).Pairwise (· < ·) := by
  induction t with
  | nil => simp [Table.rising]
  | cons e rest ih =>
    obtain ⟨i, w⟩ := e
    cases rest with
    | nil => simp [Table.rising]
    | cons e2 rest2 =>
      obtain ⟨j, w2⟩ := e2
      simp only [Table.rising, Bool.and_eq_true, decide_eq_true_eq, ih, List.map_cons, List.pairwise_cons]
      constructor
      · rintro ⟨h1, h2, h3⟩
        refine ⟨?_, h2, h3⟩
        intro a ha
        rcases List.mem_cons.mp ha with rfl | ha
        · exact h1
        · exact lt_trans h1 (h2 a ha)
      · rintro ⟨h1, h2, h3⟩
        exact ⟨h1 j (by simp), h2, h3⟩

/-- In canonical form a record is read from a table exactly when it is one of its entries. -/
theorem Table.find_iff_mem {α : Type} {t : Table α} (hr : Table.rising t = true) (k : Nat) (v : α) :
    Table.find t k = some v ↔ (k, v) ∈ t := by
  refine ⟨Table.mem_of_find, fun h => ?_⟩
  rw [Table.rising_iff] at hr
  induction t with
  | nil => simp at h
  | cons e rest ih =>
    obtain ⟨i, w⟩ := e
    simp only [List.map_cons, List.pairwise_cons] at hr
    rcases List.mem_cons.mp h with h | h
    · obtain ⟨rfl, rfl⟩ := Prod.mk.inj h
      simp [Table.find]
    · have := hr.1 k (List.mem_map_of_mem (f := (·.1)) h)
      have hne : i ≠ k := by omega
      simpa [Table.find, hne] using ih hr.2 h

theorem Table.rising_filter {α : Type} (t : Table α) (f : Nat × α → Bool) (h : Table.rising t = true) :
    Table.rising (t.filter f) = true := by
  rw [Table.rising_iff] at *
  exact h.sublist (List.filter_sublist.map _)

theorem Table.rising_del {α : Type} (t : Table α) (k : Nat) (h : Table.rising t = true) :
    Table.rising (Table.del t k) = true := Table.rising_filter t _ h

theorem Table.rising_keep {α : Type} (t : Table α) (f : α → Bool) (h : Table.rising t = true) :
    Table.rising (Table.keep t f) = true := Table.rising_filter t _ h

@[simp] theorem Table.rising_modify {α : Type} (t : Table α) (k : Nat) (f : α → α) :
    Table.rising (Table.modify t k f) = Table.rising t := by
  have h : (Table.modify t k f).map (·.1) = t.map (·.1) := by
    simp only [Table.modify, List.map_map]
    apply List.map_congr_left
    intro e _
    simp only [Function.comp]
    split <;> rfl
  rw [Bool.eq_iff_iff, Table.rising_iff, Table.rising_iff, h]

@[simp] theorem Table.rising_mapAll {α : Type} (t : Table α) (f : α → α) :
    Table.rising (Table.mapAll t f) = Table.rising t := by
  rw [Bool.eq_iff_iff, Table.rising_iff, Table.rising_iff]
  simp [Table.mapAll, Function.comp_def]

theorem Table.keys_put {α : Type} (t : Table α) (k : Nat) (v : α) (a : Nat)
    (h : a ∈ (Table.put t k v).map (·.1)) : a = k ∨ a ∈ t.map (·.1) := by
  induction t with
  | nil => simpa [Table.put] using h
  | cons e rest ih =>
    obtain ⟨i, w⟩ := e
    simp only [Table.put] at h
    split at h
    · simpa using h
    · split at h
      · rename_i h2
        rw [h2] at h
        right
        simpa using h
      · simp only [List.map_cons, List.mem_cons] at h
        rcases h with h | h
        · right
          simp [h]
        · rcases ih h with h | h
          · exact .inl h
          · right
            exact List.mem_cons_of_mem _ h

theorem Table.rising_put {α : Type} (t : Table α) (k : Nat) (v : α) (h : Table.rising t = true) :
    Table.rising (Table.put t k v) = true := by
  rw [Table.rising_iff] at *
  induction t with
  | nil => simp [Table.put]
  | cons e rest ih =>
    obtain ⟨i, w⟩ := e
    simp only [List.map_cons, List.pairwise_cons] at h
    obtain ⟨h1, h2⟩ := h
    simp only [Table.put]
    split
    · rename_i hlt
      simp only [List.map_cons, List.pairwise_cons]
      refine ⟨?_, h1, h2⟩
      intro a ha
      rcases List.mem_cons.mp ha with rfl | ha
      · exact hlt
      · exact lt_trans hlt (h1 a ha)
    · split
      · rename_i he
        simp only [List.map_cons, List.pairwise_cons, he]
        exact ⟨h1, h2⟩
      · rename_i hlt hne
        simp only [List.map_cons, List.pairwise_cons]
        refine ⟨?_, ih h2⟩
        intro a ha
        rcases Table.keys_put rest k v a ha with rfl | ha
        · omega
        · exact h1 a ha

@[simp] theorem Table.length_modify {α : Type} (t : Table α) (k : Nat) (f : α → α) :
    (Table.modify t k f).length = t.length := by simp [Table.modify]

@[simp] theorem Table.length_mapAll {α : Type} (t : Table α) (f : α → α) : (Table.mapAll t f).length = t.length := by
  simp [Table.mapAll]

theorem Table.length_del_le {α : Type} (t : Table α) (k : Nat) : (Table.del t k).length ≤ t.length := List.length_filter_le _ _

theorem Table.length_keep_le {α : Type} (t : Table α) (f : α → Bool) : (Table.keep t f).length ≤ t.length :=
  List.length_filter_le _ _

theorem Table.length_put_le {α : Type} (t : Table α) (k : Nat) (v : α) : (Table.put t k v).length ≤ t.length + 1 := by
  induction t with
  | nil => simp [Table.put]
  | cons e rest ih =>
    obtain ⟨i, w⟩ := e
    simp only [Table.put]
    split
    · simp
    · split <;> simp <;> omega

/-- Putting a record under a key that a table holds does not lengthen it. -/
theorem Table.length_put_held {α : Type} (t : Table α) (k : Nat) (v : α) (hr : Table.rising t = true)
    (h : (Table.find t k).isSome = true) : (Table.put t k v).length = t.length := by
  rw [Table.rising_iff] at hr
  induction t with
  | nil => simp [Table.find] at h
  | cons e rest ih =>
    obtain ⟨i, w⟩ := e
    simp only [List.map_cons, List.pairwise_cons] at hr
    simp only [Table.put]
    split
    · rename_i hlt
      exfalso
      have key : ∀ (u : Table α), (∀ a ∈ u.map (·.1), k < a) → Table.find u k = none := by
        intro u hu
        induction u with
        | nil => rfl
        | cons e rest ihu =>
          obtain ⟨j, x⟩ := e
          simp only [List.map_cons, List.forall_mem_cons] at hu
          have hne : ¬ j = k := by omega
          simp [Table.find, hne, ihu hu.2]
      have hnone := key ((i, w) :: rest) (by
        intro a ha
        rcases List.mem_cons.mp ha with rfl | ha
        · exact hlt
        · exact lt_trans hlt (hr.1 a ha))
      simp [hnone] at h
    · split
      · simp
      · rename_i hlt hne
        have hne' : ¬ i = k := fun e => hne e.symm
        simp only [Table.find, hne', if_false] at h
        simp [ih hr.2 h]

/-! ### Counts -/

theorem next16_pos (n : Nat) : 0 < next16 n := by unfold next16; split <;> omega

theorem next16_le {n : Nat} (h : n ≤ Config.maxCount16) : next16 n ≤ Config.maxCount16 := by
  unfold next16 Config.maxCount16 at *
  split <;> omega

theorem count32_le (n : Nat) : count32 n ≤ Config.maxCount32 := by
  unfold count32 Config.maxCount32
  split <;> omega

end Sys2Proof.Machine
end

