-- ==== Sys2Proof/Laws/State.lean ====
section
/-! SUPPORT. Laws/State.lean: each field of the part after each update, so that no proof unfolds a record update. -/

namespace Sys2Proof.Machine

/-! `Part.updLink` -/
@[simp] theorem Part.updLink_links (p : Part) (l : LinkId) (f : Link → Link) : (p.updLink l f).links = p.links.upd l f := rfl
@[simp] theorem Part.updLink_supply (p : Part) (l : LinkId) (f : Link → Link) : (p.updLink l f).supply = p.supply := rfl
@[simp] theorem Part.updLink_clocks (p : Part) (l : LinkId) (f : Link → Link) : (p.updLink l f).clocks = p.clocks := rfl
@[simp] theorem Part.updLink_account (p : Part) (l : LinkId) (f : Link → Link) : (p.updLink l f).account = p.account := rfl
@[simp] theorem Part.updLink_display (p : Part) (l : LinkId) (f : Link → Link) : (p.updLink l f).display = p.display := rfl
@[simp] theorem Part.updLink_channels (p : Part) (l : LinkId) (f : Link → Link) : (p.updLink l f).channels = p.channels := rfl
@[simp] theorem Part.updLink_accountReports (p : Part) (l : LinkId) (f : Link → Link) : (p.updLink l f).accountReports = p.accountReports := rfl
@[simp] theorem Part.updLink_now (p : Part) (l : LinkId) (f : Link → Link) : (p.updLink l f).now = p.now := rfl

/-! `Part.updClock` -/
@[simp] theorem Part.updClock_links (p : Part) (c : ClockId) (f : ClockUnit → ClockUnit) : (p.updClock c f).links = p.links := rfl
@[simp] theorem Part.updClock_supply (p : Part) (c : ClockId) (f : ClockUnit → ClockUnit) : (p.updClock c f).supply = p.supply := rfl
@[simp] theorem Part.updClock_clocks (p : Part) (c : ClockId) (f : ClockUnit → ClockUnit) : (p.updClock c f).clocks = p.clocks.upd c f := rfl
@[simp] theorem Part.updClock_account (p : Part) (c : ClockId) (f : ClockUnit → ClockUnit) : (p.updClock c f).account = p.account := rfl
@[simp] theorem Part.updClock_display (p : Part) (c : ClockId) (f : ClockUnit → ClockUnit) : (p.updClock c f).display = p.display := rfl
@[simp] theorem Part.updClock_channels (p : Part) (c : ClockId) (f : ClockUnit → ClockUnit) : (p.updClock c f).channels = p.channels := rfl
@[simp] theorem Part.updClock_accountReports (p : Part) (c : ClockId) (f : ClockUnit → ClockUnit) : (p.updClock c f).accountReports = p.accountReports := rfl
@[simp] theorem Part.updClock_now (p : Part) (c : ClockId) (f : ClockUnit → ClockUnit) : (p.updClock c f).now = p.now := rfl

/-! `Part.updChannels` -/
@[simp] theorem Part.updChannels_links (p : Part) (c : ClockId) (f : Channels → Channels) : (p.updChannels c f).links = p.links := rfl
@[simp] theorem Part.updChannels_supply (p : Part) (c : ClockId) (f : Channels → Channels) : (p.updChannels c f).supply = p.supply := rfl
@[simp] theorem Part.updChannels_clocks (p : Part) (c : ClockId) (f : Channels → Channels) : (p.updChannels c f).clocks = p.clocks := rfl
@[simp] theorem Part.updChannels_account (p : Part) (c : ClockId) (f : Channels → Channels) : (p.updChannels c f).account = p.account := rfl
@[simp] theorem Part.updChannels_display (p : Part) (c : ClockId) (f : Channels → Channels) : (p.updChannels c f).display = p.display := rfl
@[simp] theorem Part.updChannels_channels (p : Part) (c : ClockId) (f : Channels → Channels) : (p.updChannels c f).channels = p.channels.upd c f := rfl
@[simp] theorem Part.updChannels_accountReports (p : Part) (c : ClockId) (f : Channels → Channels) : (p.updChannels c f).accountReports = p.accountReports := rfl
@[simp] theorem Part.updChannels_now (p : Part) (c : ClockId) (f : Channels → Channels) : (p.updChannels c f).now = p.now := rfl

/-! `Part.updSupply` -/
@[simp] theorem Part.updSupply_links (p : Part) (f : Supply → Supply) : (p.updSupply f).links = p.links := rfl
@[simp] theorem Part.updSupply_supply (p : Part) (f : Supply → Supply) : (p.updSupply f).supply = f p.supply := rfl
@[simp] theorem Part.updSupply_clocks (p : Part) (f : Supply → Supply) : (p.updSupply f).clocks = p.clocks := rfl
@[simp] theorem Part.updSupply_account (p : Part) (f : Supply → Supply) : (p.updSupply f).account = p.account := rfl
@[simp] theorem Part.updSupply_display (p : Part) (f : Supply → Supply) : (p.updSupply f).display = p.display := rfl
@[simp] theorem Part.updSupply_channels (p : Part) (f : Supply → Supply) : (p.updSupply f).channels = p.channels := rfl
@[simp] theorem Part.updSupply_accountReports (p : Part) (f : Supply → Supply) : (p.updSupply f).accountReports = p.accountReports := rfl
@[simp] theorem Part.updSupply_now (p : Part) (f : Supply → Supply) : (p.updSupply f).now = p.now := rfl

/-! `Part.updAccount` -/
@[simp] theorem Part.updAccount_links (p : Part) (f : Account → Account) : (p.updAccount f).links = p.links := rfl
@[simp] theorem Part.updAccount_supply (p : Part) (f : Account → Account) : (p.updAccount f).supply = p.supply := rfl
@[simp] theorem Part.updAccount_clocks (p : Part) (f : Account → Account) : (p.updAccount f).clocks = p.clocks := rfl
@[simp] theorem Part.updAccount_account (p : Part) (f : Account → Account) : (p.updAccount f).account = f p.account := rfl
@[simp] theorem Part.updAccount_display (p : Part) (f : Account → Account) : (p.updAccount f).display = p.display := rfl
@[simp] theorem Part.updAccount_channels (p : Part) (f : Account → Account) : (p.updAccount f).channels = p.channels := rfl
@[simp] theorem Part.updAccount_accountReports (p : Part) (f : Account → Account) : (p.updAccount f).accountReports = p.accountReports := rfl
@[simp] theorem Part.updAccount_now (p : Part) (f : Account → Account) : (p.updAccount f).now = p.now := rfl

/-! `Part.updDisplay` -/
@[simp] theorem Part.updDisplay_links (p : Part) (f : Display → Display) : (p.updDisplay f).links = p.links := rfl
@[simp] theorem Part.updDisplay_supply (p : Part) (f : Display → Display) : (p.updDisplay f).supply = p.supply := rfl
@[simp] theorem Part.updDisplay_clocks (p : Part) (f : Display → Display) : (p.updDisplay f).clocks = p.clocks := rfl
@[simp] theorem Part.updDisplay_account (p : Part) (f : Display → Display) : (p.updDisplay f).account = p.account := rfl
@[simp] theorem Part.updDisplay_display (p : Part) (f : Display → Display) : (p.updDisplay f).display = f p.display := rfl
@[simp] theorem Part.updDisplay_channels (p : Part) (f : Display → Display) : (p.updDisplay f).channels = p.channels := rfl
@[simp] theorem Part.updDisplay_accountReports (p : Part) (f : Display → Display) : (p.updDisplay f).accountReports = p.accountReports := rfl
@[simp] theorem Part.updDisplay_now (p : Part) (f : Display → Display) : (p.updDisplay f).now = p.now := rfl

/-! `Part.updRun` -/
@[simp] theorem Part.updRun_links (p : Part) (c : ClockId) (f : RunRecord → RunRecord) : (p.updRun c f).links = p.links := rfl
@[simp] theorem Part.updRun_supply (p : Part) (c : ClockId) (f : RunRecord → RunRecord) : (p.updRun c f).supply = p.supply := rfl
@[simp] theorem Part.updRun_clocks (p : Part) (c : ClockId) (f : RunRecord → RunRecord) : (p.updRun c f).clocks = p.clocks.upd c (fun k => { k with run := f k.run }) := rfl
@[simp] theorem Part.updRun_account (p : Part) (c : ClockId) (f : RunRecord → RunRecord) : (p.updRun c f).account = p.account := rfl
@[simp] theorem Part.updRun_display (p : Part) (c : ClockId) (f : RunRecord → RunRecord) : (p.updRun c f).display = p.display := rfl
@[simp] theorem Part.updRun_channels (p : Part) (c : ClockId) (f : RunRecord → RunRecord) : (p.updRun c f).channels = p.channels := rfl
@[simp] theorem Part.updRun_accountReports (p : Part) (c : ClockId) (f : RunRecord → RunRecord) : (p.updRun c f).accountReports = p.accountReports := rfl
@[simp] theorem Part.updRun_now (p : Part) (c : ClockId) (f : RunRecord → RunRecord) : (p.updRun c f).now = p.now := rfl

/-! `Part.updLot` -/
@[simp] theorem Part.updLot_links (p : Part) (i : Nat) (f : Lot → Lot) : (p.updLot i f).links = p.links := rfl
@[simp] theorem Part.updLot_supply (p : Part) (i : Nat) (f : Lot → Lot) : (p.updLot i f).supply = { p.supply with lots := p.supply.lots.modify i f } := rfl
@[simp] theorem Part.updLot_clocks (p : Part) (i : Nat) (f : Lot → Lot) : (p.updLot i f).clocks = p.clocks := rfl
@[simp] theorem Part.updLot_account (p : Part) (i : Nat) (f : Lot → Lot) : (p.updLot i f).account = p.account := rfl
@[simp] theorem Part.updLot_display (p : Part) (i : Nat) (f : Lot → Lot) : (p.updLot i f).display = p.display := rfl
@[simp] theorem Part.updLot_channels (p : Part) (i : Nat) (f : Lot → Lot) : (p.updLot i f).channels = p.channels := rfl
@[simp] theorem Part.updLot_accountReports (p : Part) (i : Nat) (f : Lot → Lot) : (p.updLot i f).accountReports = p.accountReports := rfl
@[simp] theorem Part.updLot_now (p : Part) (i : Nat) (f : Lot → Lot) : (p.updLot i f).now = p.now := rfl

/-! `Part.updTrolley` -/
@[simp] theorem Part.updTrolley_links (p : Part) (i : Nat) (f : Trolley → Trolley) : (p.updTrolley i f).links = p.links := rfl
@[simp] theorem Part.updTrolley_supply (p : Part) (i : Nat) (f : Trolley → Trolley) : (p.updTrolley i f).supply = { p.supply with trolleys := p.supply.trolleys.modify i f } := rfl
@[simp] theorem Part.updTrolley_clocks (p : Part) (i : Nat) (f : Trolley → Trolley) : (p.updTrolley i f).clocks = p.clocks := rfl
@[simp] theorem Part.updTrolley_account (p : Part) (i : Nat) (f : Trolley → Trolley) : (p.updTrolley i f).account = p.account := rfl
@[simp] theorem Part.updTrolley_display (p : Part) (i : Nat) (f : Trolley → Trolley) : (p.updTrolley i f).display = p.display := rfl
@[simp] theorem Part.updTrolley_channels (p : Part) (i : Nat) (f : Trolley → Trolley) : (p.updTrolley i f).channels = p.channels := rfl
@[simp] theorem Part.updTrolley_accountReports (p : Part) (i : Nat) (f : Trolley → Trolley) : (p.updTrolley i f).accountReports = p.accountReports := rfl
@[simp] theorem Part.updTrolley_now (p : Part) (i : Nat) (f : Trolley → Trolley) : (p.updTrolley i f).now = p.now := rfl

/-! `Part.updBuyer` -/
@[simp] theorem Part.updBuyer_links (p : Part) (i : Nat) (f : Buyer → Buyer) : (p.updBuyer i f).links = p.links := rfl
@[simp] theorem Part.updBuyer_supply (p : Part) (i : Nat) (f : Buyer → Buyer) : (p.updBuyer i f).supply = p.supply := rfl
@[simp] theorem Part.updBuyer_clocks (p : Part) (i : Nat) (f : Buyer → Buyer) : (p.updBuyer i f).clocks = p.clocks := rfl
@[simp] theorem Part.updBuyer_account (p : Part) (i : Nat) (f : Buyer → Buyer) : (p.updBuyer i f).account = { p.account with buyers := p.account.buyers.modify i f } := rfl
@[simp] theorem Part.updBuyer_display (p : Part) (i : Nat) (f : Buyer → Buyer) : (p.updBuyer i f).display = p.display := rfl
@[simp] theorem Part.updBuyer_channels (p : Part) (i : Nat) (f : Buyer → Buyer) : (p.updBuyer i f).channels = p.channels := rfl
@[simp] theorem Part.updBuyer_accountReports (p : Part) (i : Nat) (f : Buyer → Buyer) : (p.updBuyer i f).accountReports = p.accountReports := rfl
@[simp] theorem Part.updBuyer_now (p : Part) (i : Nat) (f : Buyer → Buyer) : (p.updBuyer i f).now = p.now := rfl

/-! `Part.reach` -/
@[simp] theorem Part.reach_links (p : Part) (t : Nat) : (p.reach t).links = p.links := rfl
@[simp] theorem Part.reach_supply (p : Part) (t : Nat) : (p.reach t).supply = p.supply := rfl
@[simp] theorem Part.reach_clocks (p : Part) (t : Nat) : (p.reach t).clocks = p.clocks := rfl
@[simp] theorem Part.reach_account (p : Part) (t : Nat) : (p.reach t).account = p.account := rfl
@[simp] theorem Part.reach_display (p : Part) (t : Nat) : (p.reach t).display = p.display := rfl
@[simp] theorem Part.reach_channels (p : Part) (t : Nat) : (p.reach t).channels = p.channels := rfl
@[simp] theorem Part.reach_accountReports (p : Part) (t : Nat) : (p.reach t).accountReports = p.accountReports := rfl
@[simp] theorem Part.reach_now (p : Part) (t : Nat) : (p.reach t).now = max p.now t := rfl

end Sys2Proof.Machine
end

