-- ==== Sys2Proof/Laws/Ops.lean ====
section
/-! SUPPORT. Laws/Ops.lean: what each shared operation can do, said once: hand-overs, placed messages, the taking of a message and
the change of a clock's state. -/

namespace Sys2Proof.Machine

/-! ### Running a command -/

/-- With the pin high a command has its effect on the part and on nothing else. -/
theorem run_high {s : State} (h : s.pinLow = false) (f : Part → Part) : run s f = .next { s with part := f s.part } := by
  simp [run, h]

/-- With the pin low a command changes nothing. -/
theorem run_low {s : State} (h : s.pinLow = true) (f : Part → Part) : run s f = .next s := by simp [run, h]

/-- Every command answers a next state whose queue and pin are those it started from. -/
theorem run_next (s : State) (f : Part → Part) : ∃ t, run s f = .next t ∧ t.pending = s.pending ∧ t.pinLow = s.pinLow := by
  unfold run
  split
  · exact ⟨s, rfl, rfl, rfl⟩
  · exact ⟨_, rfl, rfl, rfl⟩

/-! ### Hand-overs -/

/-! `Part.toClock` -/
@[simp] theorem Part.toClock_links (p : Part) (c : ClockId) (m : ToClock) : (p.toClock c m).links = p.links := rfl
@[simp] theorem Part.toClock_supply (p : Part) (c : ClockId) (m : ToClock) : (p.toClock c m).supply = p.supply := rfl
@[simp] theorem Part.toClock_clocks (p : Part) (c : ClockId) (m : ToClock) : (p.toClock c m).clocks = p.clocks := rfl
@[simp] theorem Part.toClock_account (p : Part) (c : ClockId) (m : ToClock) : (p.toClock c m).account = p.account := rfl
@[simp] theorem Part.toClock_display (p : Part) (c : ClockId) (m : ToClock) : (p.toClock c m).display = p.display := rfl
@[simp] theorem Part.toClock_channels (p : Part) (c : ClockId) (m : ToClock) : (p.toClock c m).channels = p.channels.upd c (fun h => { h with accountToClock := h.accountToClock ++ [m] }) := rfl
@[simp] theorem Part.toClock_accountReports (p : Part) (c : ClockId) (m : ToClock) : (p.toClock c m).accountReports = p.accountReports := rfl
@[simp] theorem Part.toClock_now (p : Part) (c : ClockId) (m : ToClock) : (p.toClock c m).now = p.now := rfl

/-! `Part.toAccount` -/
@[simp] theorem Part.toAccount_links (p : Part) (c : ClockId) (m : ToAccount) : (p.toAccount c m).links = p.links := rfl
@[simp] theorem Part.toAccount_supply (p : Part) (c : ClockId) (m : ToAccount) : (p.toAccount c m).supply = p.supply := rfl
@[simp] theorem Part.toAccount_clocks (p : Part) (c : ClockId) (m : ToAccount) : (p.toAccount c m).clocks = p.clocks := rfl
@[simp] theorem Part.toAccount_account (p : Part) (c : ClockId) (m : ToAccount) : (p.toAccount c m).account = p.account := rfl
@[simp] theorem Part.toAccount_display (p : Part) (c : ClockId) (m : ToAccount) : (p.toAccount c m).display = p.display := rfl
@[simp] theorem Part.toAccount_channels (p : Part) (c : ClockId) (m : ToAccount) : (p.toAccount c m).channels = p.channels.upd c (fun h => { h with clockToAccount := h.clockToAccount ++ [m] }) := rfl
@[simp] theorem Part.toAccount_accountReports (p : Part) (c : ClockId) (m : ToAccount) : (p.toAccount c m).accountReports = p.accountReports := rfl
@[simp] theorem Part.toAccount_now (p : Part) (c : ClockId) (m : ToAccount) : (p.toAccount c m).now = p.now := rfl

/-! `Part.tellClock` -/
@[simp] theorem Part.tellClock_links (p : Part) (c : ClockId) (m : ToClockFromSupply) : (p.tellClock c m).links = p.links := rfl
@[simp] theorem Part.tellClock_supply (p : Part) (c : ClockId) (m : ToClockFromSupply) : (p.tellClock c m).supply = p.supply := rfl
@[simp] theorem Part.tellClock_clocks (p : Part) (c : ClockId) (m : ToClockFromSupply) : (p.tellClock c m).clocks = p.clocks := rfl
@[simp] theorem Part.tellClock_account (p : Part) (c : ClockId) (m : ToClockFromSupply) : (p.tellClock c m).account = p.account := rfl
@[simp] theorem Part.tellClock_display (p : Part) (c : ClockId) (m : ToClockFromSupply) : (p.tellClock c m).display = p.display := rfl
@[simp] theorem Part.tellClock_channels (p : Part) (c : ClockId) (m : ToClockFromSupply) : (p.tellClock c m).channels = p.channels.upd c (fun h => { h with supplyToClock := h.supplyToClock ++ [m] }) := rfl
@[simp] theorem Part.tellClock_accountReports (p : Part) (c : ClockId) (m : ToClockFromSupply) : (p.tellClock c m).accountReports = p.accountReports := rfl
@[simp] theorem Part.tellClock_now (p : Part) (c : ClockId) (m : ToClockFromSupply) : (p.tellClock c m).now = p.now := rfl

/-! `Part.toSupply` -/
@[simp] theorem Part.toSupply_links (p : Part) (c : ClockId) (m : Nat) : (p.toSupply c m).links = p.links := rfl
@[simp] theorem Part.toSupply_supply (p : Part) (c : ClockId) (m : Nat) : (p.toSupply c m).supply = p.supply := rfl
@[simp] theorem Part.toSupply_clocks (p : Part) (c : ClockId) (m : Nat) : (p.toSupply c m).clocks = p.clocks := rfl
@[simp] theorem Part.toSupply_account (p : Part) (c : ClockId) (m : Nat) : (p.toSupply c m).account = p.account := rfl
@[simp] theorem Part.toSupply_display (p : Part) (c : ClockId) (m : Nat) : (p.toSupply c m).display = p.display := rfl
@[simp] theorem Part.toSupply_channels (p : Part) (c : ClockId) (m : Nat) : (p.toSupply c m).channels = p.channels.upd c (fun h => { h with clockToSupply := h.clockToSupply ++ [m] }) := rfl
@[simp] theorem Part.toSupply_accountReports (p : Part) (c : ClockId) (m : Nat) : (p.toSupply c m).accountReports = p.accountReports := rfl
@[simp] theorem Part.toSupply_now (p : Part) (c : ClockId) (m : Nat) : (p.toSupply c m).now = p.now := rfl

/-! `Part.toDisplay` -/
@[simp] theorem Part.toDisplay_links (p : Part) (c : ClockId) (m : ClockEvent) : (p.toDisplay c m).links = p.links := rfl
@[simp] theorem Part.toDisplay_supply (p : Part) (c : ClockId) (m : ClockEvent) : (p.toDisplay c m).supply = p.supply := rfl
@[simp] theorem Part.toDisplay_clocks (p : Part) (c : ClockId) (m : ClockEvent) : (p.toDisplay c m).clocks = p.clocks := rfl
@[simp] theorem Part.toDisplay_account (p : Part) (c : ClockId) (m : ClockEvent) : (p.toDisplay c m).account = p.account := rfl
@[simp] theorem Part.toDisplay_display (p : Part) (c : ClockId) (m : ClockEvent) : (p.toDisplay c m).display = p.display := rfl
@[simp] theorem Part.toDisplay_channels (p : Part) (c : ClockId) (m : ClockEvent) : (p.toDisplay c m).channels = p.channels.upd c (fun h => { h with clockToDisplay := h.clockToDisplay ++ [m] }) := rfl
@[simp] theorem Part.toDisplay_accountReports (p : Part) (c : ClockId) (m : ClockEvent) : (p.toDisplay c m).accountReports = p.accountReports := rfl
@[simp] theorem Part.toDisplay_now (p : Part) (c : ClockId) (m : ClockEvent) : (p.toDisplay c m).now = p.now := rfl

/-! `Part.supplyToDisplay` -/
@[simp] theorem Part.supplyToDisplay_links (p : Part) (c : ClockId) (m : SupplyEvent) : (p.supplyToDisplay c m).links = p.links := rfl
@[simp] theorem Part.supplyToDisplay_supply (p : Part) (c : ClockId) (m : SupplyEvent) : (p.supplyToDisplay c m).supply = p.supply := rfl
@[simp] theorem Part.supplyToDisplay_clocks (p : Part) (c : ClockId) (m : SupplyEvent) : (p.supplyToDisplay c m).clocks = p.clocks := rfl
@[simp] theorem Part.supplyToDisplay_account (p : Part) (c : ClockId) (m : SupplyEvent) : (p.supplyToDisplay c m).account = p.account := rfl
@[simp] theorem Part.supplyToDisplay_display (p : Part) (c : ClockId) (m : SupplyEvent) : (p.supplyToDisplay c m).display = p.display := rfl
@[simp] theorem Part.supplyToDisplay_channels (p : Part) (c : ClockId) (m : SupplyEvent) : (p.supplyToDisplay c m).channels = p.channels.upd c (fun h => { h with supplyToDisplay := h.supplyToDisplay ++ [m] }) := rfl
@[simp] theorem Part.supplyToDisplay_accountReports (p : Part) (c : ClockId) (m : SupplyEvent) : (p.supplyToDisplay c m).accountReports = p.accountReports := rfl
@[simp] theorem Part.supplyToDisplay_now (p : Part) (c : ClockId) (m : SupplyEvent) : (p.supplyToDisplay c m).now = p.now := rfl

/-! `Part.clockReport` -/
@[simp] theorem Part.clockReport_links (p : Part) (c : ClockId) (m : Report) : (p.clockReport c m).links = p.links := rfl
@[simp] theorem Part.clockReport_supply (p : Part) (c : ClockId) (m : Report) : (p.clockReport c m).supply = p.supply := rfl
@[simp] theorem Part.clockReport_clocks (p : Part) (c : ClockId) (m : Report) : (p.clockReport c m).clocks = p.clocks := rfl
@[simp] theorem Part.clockReport_account (p : Part) (c : ClockId) (m : Report) : (p.clockReport c m).account = p.account := rfl
@[simp] theorem Part.clockReport_display (p : Part) (c : ClockId) (m : Report) : (p.clockReport c m).display = p.display := rfl
@[simp] theorem Part.clockReport_channels (p : Part) (c : ClockId) (m : Report) : (p.clockReport c m).channels = p.channels.upd c (fun h => { h with clockReports := h.clockReports ++ [m] }) := rfl
@[simp] theorem Part.clockReport_accountReports (p : Part) (c : ClockId) (m : Report) : (p.clockReport c m).accountReports = p.accountReports := rfl
@[simp] theorem Part.clockReport_now (p : Part) (c : ClockId) (m : Report) : (p.clockReport c m).now = p.now := rfl

/-! `Part.accountReport` -/
@[simp] theorem Part.accountReport_links (p : Part) (r : Report) : (p.accountReport r).links = p.links := rfl
@[simp] theorem Part.accountReport_supply (p : Part) (r : Report) : (p.accountReport r).supply = p.supply := rfl
@[simp] theorem Part.accountReport_clocks (p : Part) (r : Report) : (p.accountReport r).clocks = p.clocks := rfl
@[simp] theorem Part.accountReport_account (p : Part) (r : Report) : (p.accountReport r).account = p.account := rfl
@[simp] theorem Part.accountReport_display (p : Part) (r : Report) : (p.accountReport r).display = p.display := rfl
@[simp] theorem Part.accountReport_channels (p : Part) (r : Report) : (p.accountReport r).channels = p.channels := rfl
@[simp] theorem Part.accountReport_accountReports (p : Part) (r : Report) : (p.accountReport r).accountReports = p.accountReports ++ [r] := rfl
@[simp] theorem Part.accountReport_now (p : Part) (r : Report) : (p.accountReport r).now = p.now := rfl

/-! `Part.toAllClocks` -/
@[simp] theorem Part.toAllClocks_links (p : Part) (m : ToClock) : (p.toAllClocks m).links = p.links := rfl
@[simp] theorem Part.toAllClocks_supply (p : Part) (m : ToClock) : (p.toAllClocks m).supply = p.supply := rfl
@[simp] theorem Part.toAllClocks_clocks (p : Part) (m : ToClock) : (p.toAllClocks m).clocks = p.clocks := rfl
@[simp] theorem Part.toAllClocks_account (p : Part) (m : ToClock) : (p.toAllClocks m).account = p.account := rfl
@[simp] theorem Part.toAllClocks_display (p : Part) (m : ToClock) : (p.toAllClocks m).display = p.display := rfl
@[simp] theorem Part.toAllClocks_accountReports (p : Part) (m : ToClock) : (p.toAllClocks m).accountReports = p.accountReports := rfl
@[simp] theorem Part.toAllClocks_now (p : Part) (m : ToClock) : (p.toAllClocks m).now = p.now := rfl

/-- Each clock's channels gain the hand-over. -/
@[simp] theorem Part.toAllClocks_channels_get (p : Part) (m : ToClock) (c : ClockId) :
    (p.toAllClocks m).channels.get c =
      { p.channels.get c with accountToClock := (p.channels.get c).accountToClock ++ [m] } := by cases c <;> rfl

/-! `Part.postUrgent` -/
@[simp] theorem Part.postUrgent_links (p : Part) (l : LinkId) (m : OutMsg) : (p.postUrgent l m).links = p.links.upd l (fun k => if k.state = .up then k.putUrgent m else k) := rfl
@[simp] theorem Part.postUrgent_supply (p : Part) (l : LinkId) (m : OutMsg) : (p.postUrgent l m).supply = p.supply := rfl
@[simp] theorem Part.postUrgent_clocks (p : Part) (l : LinkId) (m : OutMsg) : (p.postUrgent l m).clocks = p.clocks := rfl
@[simp] theorem Part.postUrgent_account (p : Part) (l : LinkId) (m : OutMsg) : (p.postUrgent l m).account = p.account := rfl
@[simp] theorem Part.postUrgent_display (p : Part) (l : LinkId) (m : OutMsg) : (p.postUrgent l m).display = p.display := rfl
@[simp] theorem Part.postUrgent_channels (p : Part) (l : LinkId) (m : OutMsg) : (p.postUrgent l m).channels = p.channels := rfl
@[simp] theorem Part.postUrgent_accountReports (p : Part) (l : LinkId) (m : OutMsg) : (p.postUrgent l m).accountReports = p.accountReports := rfl
@[simp] theorem Part.postUrgent_now (p : Part) (l : LinkId) (m : OutMsg) : (p.postUrgent l m).now = p.now := rfl

/-! `Part.postBulk` -/
@[simp] theorem Part.postBulk_links (p : Part) (l : LinkId) (m : OutMsg) : (p.postBulk l m).links = p.links.upd l (fun k => if k.state = .up then k.putBulk m else k) := rfl
@[simp] theorem Part.postBulk_supply (p : Part) (l : LinkId) (m : OutMsg) : (p.postBulk l m).supply = p.supply := rfl
@[simp] theorem Part.postBulk_clocks (p : Part) (l : LinkId) (m : OutMsg) : (p.postBulk l m).clocks = p.clocks := rfl
@[simp] theorem Part.postBulk_account (p : Part) (l : LinkId) (m : OutMsg) : (p.postBulk l m).account = p.account := rfl
@[simp] theorem Part.postBulk_display (p : Part) (l : LinkId) (m : OutMsg) : (p.postBulk l m).display = p.display := rfl
@[simp] theorem Part.postBulk_channels (p : Part) (l : LinkId) (m : OutMsg) : (p.postBulk l m).channels = p.channels := rfl
@[simp] theorem Part.postBulk_accountReports (p : Part) (l : LinkId) (m : OutMsg) : (p.postBulk l m).accountReports = p.accountReports := rfl
@[simp] theorem Part.postBulk_now (p : Part) (l : LinkId) (m : OutMsg) : (p.postBulk l m).now = p.now := rfl

/-! `Part.postLink` -/
@[simp] theorem Part.postLink_links (p : Part) (l : LinkId) (m : OutMsg) : (p.postLink l m).links = p.links.upd l (fun k => if k.state = .up ∨ k.state = .waiting then k.putUrgent m else k) := rfl
@[simp] theorem Part.postLink_supply (p : Part) (l : LinkId) (m : OutMsg) : (p.postLink l m).supply = p.supply := rfl
@[simp] theorem Part.postLink_clocks (p : Part) (l : LinkId) (m : OutMsg) : (p.postLink l m).clocks = p.clocks := rfl
@[simp] theorem Part.postLink_account (p : Part) (l : LinkId) (m : OutMsg) : (p.postLink l m).account = p.account := rfl
@[simp] theorem Part.postLink_display (p : Part) (l : LinkId) (m : OutMsg) : (p.postLink l m).display = p.display := rfl
@[simp] theorem Part.postLink_channels (p : Part) (l : LinkId) (m : OutMsg) : (p.postLink l m).channels = p.channels := rfl
@[simp] theorem Part.postLink_accountReports (p : Part) (l : LinkId) (m : OutMsg) : (p.postLink l m).accountReports = p.accountReports := rfl
@[simp] theorem Part.postLink_now (p : Part) (l : LinkId) (m : OutMsg) : (p.postLink l m).now = p.now := rfl

/-! `Part.reply` and `Part.refuseMsg` -/
@[simp] theorem Part.reply_supply (p : Part) (l : LinkId) (m : Message) (b : OutBody) : (p.reply l m b).supply = p.supply := rfl
@[simp] theorem Part.reply_clocks (p : Part) (l : LinkId) (m : Message) (b : OutBody) : (p.reply l m b).clocks = p.clocks := rfl
@[simp] theorem Part.reply_account (p : Part) (l : LinkId) (m : Message) (b : OutBody) : (p.reply l m b).account = p.account := rfl
@[simp] theorem Part.reply_display (p : Part) (l : LinkId) (m : Message) (b : OutBody) : (p.reply l m b).display = p.display := rfl
@[simp] theorem Part.reply_channels (p : Part) (l : LinkId) (m : Message) (b : OutBody) : (p.reply l m b).channels = p.channels := rfl
@[simp] theorem Part.reply_accountReports (p : Part) (l : LinkId) (m : Message) (b : OutBody) : (p.reply l m b).accountReports = p.accountReports := rfl
@[simp] theorem Part.reply_now (p : Part) (l : LinkId) (m : Message) (b : OutBody) : (p.reply l m b).now = p.now := rfl
@[simp] theorem Part.reply_links (p : Part) (l : LinkId) (m : Message) (b : OutBody) :
    (p.reply l m b).links = p.links.upd l (fun k => if k.state = .up then k.putUrgent ⟨m.tag, b⟩ else k) := rfl
@[simp] theorem Part.refuseMsg_supply (p : Part) (l : LinkId) (m : Message) (e : Cause) : (p.refuseMsg l m e).supply = p.supply := rfl
@[simp] theorem Part.refuseMsg_clocks (p : Part) (l : LinkId) (m : Message) (e : Cause) : (p.refuseMsg l m e).clocks = p.clocks := rfl
@[simp] theorem Part.refuseMsg_account (p : Part) (l : LinkId) (m : Message) (e : Cause) : (p.refuseMsg l m e).account = p.account := rfl
@[simp] theorem Part.refuseMsg_display (p : Part) (l : LinkId) (m : Message) (e : Cause) : (p.refuseMsg l m e).display = p.display := rfl
@[simp] theorem Part.refuseMsg_channels (p : Part) (l : LinkId) (m : Message) (e : Cause) : (p.refuseMsg l m e).channels = p.channels := rfl
@[simp] theorem Part.refuseMsg_accountReports (p : Part) (l : LinkId) (m : Message) (e : Cause) : (p.refuseMsg l m e).accountReports = p.accountReports := rfl
@[simp] theorem Part.refuseMsg_now (p : Part) (l : LinkId) (m : Message) (e : Cause) : (p.refuseMsg l m e).now = p.now := rfl
@[simp] theorem Part.refuseMsg_links (p : Part) (l : LinkId) (m : Message) (e : Cause) :
    (p.refuseMsg l m e).links =
      p.links.upd l (fun k => if k.state = .up then k.putUrgent ⟨m.tag, .refused none e none⟩ else k) := rfl

/-! `Part.postRole`, `Part.postMirror` and `Part.toConsole` touch the links alone -/
@[simp] theorem Part.postRole_supply (p : Part) (r : Role) (m : OutMsg) : (p.postRole r m).supply = p.supply := by
  unfold Part.postRole; split <;> simp
@[simp] theorem Part.postRole_clocks (p : Part) (r : Role) (m : OutMsg) : (p.postRole r m).clocks = p.clocks := by
  unfold Part.postRole; split <;> simp
@[simp] theorem Part.postRole_account (p : Part) (r : Role) (m : OutMsg) : (p.postRole r m).account = p.account := by
  unfold Part.postRole; split <;> simp
@[simp] theorem Part.postRole_display (p : Part) (r : Role) (m : OutMsg) : (p.postRole r m).display = p.display := by
  unfold Part.postRole; split <;> simp
@[simp] theorem Part.postRole_channels (p : Part) (r : Role) (m : OutMsg) : (p.postRole r m).channels = p.channels := by
  unfold Part.postRole; split <;> simp
@[simp] theorem Part.postRole_accountReports (p : Part) (r : Role) (m : OutMsg) : (p.postRole r m).accountReports = p.accountReports := by
  unfold Part.postRole; split <;> simp
@[simp] theorem Part.postRole_now (p : Part) (r : Role) (m : OutMsg) : (p.postRole r m).now = p.now := by
  unfold Part.postRole; split <;> simp
@[simp] theorem Part.postMirror_supply (p : Part) (m : OutMsg) : (p.postMirror m).supply = p.supply := by
  unfold Part.postMirror; split <;> simp
@[simp] theorem Part.postMirror_clocks (p : Part) (m : OutMsg) : (p.postMirror m).clocks = p.clocks := by
  unfold Part.postMirror; split <;> simp
@[simp] theorem Part.postMirror_account (p : Part) (m : OutMsg) : (p.postMirror m).account = p.account := by
  unfold Part.postMirror; split <;> simp
@[simp] theorem Part.postMirror_display (p : Part) (m : OutMsg) : (p.postMirror m).display = p.display := by
  unfold Part.postMirror; split <;> simp
@[simp] theorem Part.postMirror_channels (p : Part) (m : OutMsg) : (p.postMirror m).channels = p.channels := by
  unfold Part.postMirror; split <;> simp
@[simp] theorem Part.postMirror_accountReports (p : Part) (m : OutMsg) : (p.postMirror m).accountReports = p.accountReports := by
  unfold Part.postMirror; split <;> simp
@[simp] theorem Part.postMirror_now (p : Part) (m : OutMsg) : (p.postMirror m).now = p.now := by
  unfold Part.postMirror; split <;> simp
@[simp] theorem Part.toConsole_supply (p : Part) (c : ClockId) (b : OutBody) : (p.toConsole c b).supply = p.supply := by
  simp [Part.toConsole]
@[simp] theorem Part.toConsole_clocks (p : Part) (c : ClockId) (b : OutBody) : (p.toConsole c b).clocks = p.clocks := by
  simp [Part.toConsole]
@[simp] theorem Part.toConsole_account (p : Part) (c : ClockId) (b : OutBody) : (p.toConsole c b).account = p.account := by
  simp [Part.toConsole]
@[simp] theorem Part.toConsole_display (p : Part) (c : ClockId) (b : OutBody) : (p.toConsole c b).display = p.display := by
  simp [Part.toConsole]
@[simp] theorem Part.toConsole_channels (p : Part) (c : ClockId) (b : OutBody) : (p.toConsole c b).channels = p.channels := by
  simp [Part.toConsole]
@[simp] theorem Part.toConsole_accountReports (p : Part) (c : ClockId) (b : OutBody) : (p.toConsole c b).accountReports = p.accountReports := by
  simp [Part.toConsole]
@[simp] theorem Part.toConsole_now (p : Part) (c : ClockId) (b : OutBody) : (p.toConsole c b).now = p.now := by
  simp [Part.toConsole]

/-! ### A clock's change of state -/

@[simp] theorem enterState_supply (c : ClockId) (st : ClockState) (p : Part) : (enterState c st p).supply = p.supply := by
  simp [enterState]
@[simp] theorem enterState_account (c : ClockId) (st : ClockState) (p : Part) : (enterState c st p).account = p.account := by
  simp [enterState]
@[simp] theorem enterState_display (c : ClockId) (st : ClockState) (p : Part) : (enterState c st p).display = p.display := by
  simp [enterState]
@[simp] theorem enterState_accountReports (c : ClockId) (st : ClockState) (p : Part) :
    (enterState c st p).accountReports = p.accountReports := by simp [enterState]
@[simp] theorem enterState_now (c : ClockId) (st : ClockState) (p : Part) : (enterState c st p).now = p.now := by
  simp [enterState]
/-- The Clock Unit changes in its state alone. -/
@[simp] theorem enterState_clocks (c : ClockId) (st : ClockState) (p : Part) :
    (enterState c st p).clocks = p.clocks.upd c (fun k => { k with state := st }) := by simp [enterState]
/-- The Display Unit is sent a state event, and the Account Unit the activity. -/
@[simp] theorem enterState_channels (c : ClockId) (st : ClockState) (p : Part) :
    (enterState c st p).channels = p.channels.upd c (fun h =>
      { h with clockToDisplay := h.clockToDisplay ++ [.state ((p.updClock c (fun k => { k with state := st })).report c)],
               clockToAccount := h.clockToAccount ++ [.activity st.active none] }) := by
  simp [enterState, Part.report, Part.lotReport, Part.lot]

/-! ### Queues hold their capacity -/

theorem Link.putUrgent_urgent_length {k : Link} (m : OutMsg) (h : k.urgent.length ≤ Config.urgentCap) :
    (k.putUrgent m).urgent.length ≤ Config.urgentCap := by
  unfold Link.putUrgent
  split
  · simp; omega
  · simpa [Link.urgentDropped] using h

theorem Link.putBulk_bulk_length {k : Link} (m : OutMsg) (h : k.bulk.length ≤ Config.bulkCap) :
    (k.putBulk m).bulk.length ≤ Config.bulkCap := by
  unfold Link.putBulk
  split
  · simp; omega
  · simpa [Link.bulkDropped] using h

@[simp] theorem Link.leave_state (k : Link) : k.leave.state = k.state := by
  unfold Link.leave Link.flowOnLeave; split <;> rfl
@[simp] theorem Link.leave_role (k : Link) : k.leave.role = k.role := by
  unfold Link.leave Link.flowOnLeave; split <;> rfl
@[simp] theorem Link.leave_inbound (k : Link) : k.leave.inbound = k.inbound.tail := by
  unfold Link.leave Link.flowOnLeave; split <;> rfl
@[simp] theorem Link.leave_urgent (k : Link) : k.leave.urgent = k.urgent := by
  unfold Link.leave Link.flowOnLeave; split <;> rfl
@[simp] theorem Link.leave_bulk (k : Link) : k.leave.bulk = k.bulk := by
  unfold Link.leave Link.flowOnLeave; split <;> rfl
@[simp] theorem Link.leave_stats (k : Link) : k.leave.stats = k.stats := by
  unfold Link.leave Link.flowOnLeave; split <;> rfl
@[simp] theorem Link.leave_lossTimer (k : Link) : k.leave.lossTimer = k.lossTimer := by
  unfold Link.leave Link.flowOnLeave; split <;> rfl
@[simp] theorem Link.leave_keepTimer (k : Link) : k.leave.keepTimer = k.keepTimer := by
  unfold Link.leave Link.flowOnLeave; split <;> rfl

/-! ### Taking a message -/

/-- The message at the head of a serving link, of the kind asked for, leaves the queue and is judged. -/
theorem takeMessage_head {l : LinkId} {k : Kind} {handle : Message → Part → Part} {p : Part} {raw : List Byte}
    (hs : (p.links.get l).state.serving = true) (hh : (p.links.get l).inbound.head? = some raw)
    (hk : kindOf (parse raw).code = some k) :
    takeMessage l k handle p = judgeMessage l k (parse raw) raw.length handle (p.updLink l Link.leave) := by
  unfold takeMessage
  rw [if_pos hs]
  cases hi : (p.links.get l).inbound with
  | nil => simp [hi] at hh
  | cons a rest =>
    rw [hi] at hh
    obtain rfl : a = raw := by simpa using hh
    simp [hk]

/-- On an UP link, a message of 160 bytes or fewer whose kind its role permits is handed to its unit. -/
theorem judgeMessage_permitted {l : LinkId} {k : Kind} {m : Message} {n : Nat} {handle : Message → Part → Part} {p : Part}
    {r : Role} (hn : n ≤ Config.maxMessage) (hu : (p.links.get l).state = .up) (hr : (p.links.get l).role = some r)
    (hp : permitted r k = true) : judgeMessage l k m n handle p = handle m p := by
  have hk : k ≠ .announce := by rintro rfl; simp [permitted] at hp
  have hn' : ¬ Config.maxMessage < n := by omega
  simp [judgeMessage, hn', hu, hr, hp, hk]

end Sys2Proof.Machine
end

