-- ==== Sys2Proof/Laws/PerInstr.lean ====
section
/-! SUPPORT. Laws/PerInstr.lean: a statement about every command, one lemma per constructor. -/

namespace Sys2Proof.Laws.Operands

/-- The only operand that can be ill formed is the hall desk of an age expiry (R106: indices 0 to 511). -/
def Statement (i : Instr) : Prop := i.WellFormed ↔ ∀ d, i = .ageExpiry d → d < Config.deskCount

theorem reset : Statement .reset := by simp [Statement, Instr.WellFormed, Instr.wellFormed]
theorem resetPinHeldLow : Statement .resetPinHeldLow := by simp [Statement, Instr.WellFormed, Instr.wellFormed]
theorem lineActivity (l : LinkId) : Statement (.lineActivity l) := by simp [Statement, Instr.WellFormed, Instr.wellFormed]
theorem frameReceived (l : LinkId) (bytes : List Byte) : Statement (.frameReceived l bytes) :=
  by simp [Statement, Instr.WellFormed, Instr.wellFormed]
theorem keepMarker (l : LinkId) : Statement (.keepMarker l) := by simp [Statement, Instr.WellFormed, Instr.wellFormed]
theorem waitMarker (l : LinkId) : Statement (.waitMarker l) := by simp [Statement, Instr.WellFormed, Instr.wellFormed]
theorem goMarker (l : LinkId) : Statement (.goMarker l) := by simp [Statement, Instr.WellFormed, Instr.wellFormed]
theorem lossTimerExpiry (l : LinkId) : Statement (.lossTimerExpiry l) :=
  by simp [Statement, Instr.WellFormed, Instr.wellFormed]
theorem keepTimerExpiry (l : LinkId) : Statement (.keepTimerExpiry l) :=
  by simp [Statement, Instr.WellFormed, Instr.wellFormed]
theorem frameSent (l : LinkId) : Statement (.frameSent l) := by simp [Statement, Instr.WellFormed, Instr.wellFormed]
theorem unknownKind (l : LinkId) : Statement (.unknownKind l) := by simp [Statement, Instr.WellFormed, Instr.wellFormed]
theorem announce (l : LinkId) : Statement (.announce l) := by simp [Statement, Instr.WellFormed, Instr.wellFormed]
theorem trainHeader (l : LinkId) : Statement (.trainHeader l) := by simp [Statement, Instr.WellFormed, Instr.wellFormed]
theorem trolleyEntry (l : LinkId) : Statement (.trolleyEntry l) := by simp [Statement, Instr.WellFormed, Instr.wellFormed]
theorem trolleyArrived (l : LinkId) : Statement (.trolleyArrived l) := by simp [Statement, Instr.WellFormed, Instr.wellFormed]
theorem lotWithdraw (l : LinkId) : Statement (.lotWithdraw l) := by simp [Statement, Instr.WellFormed, Instr.wellFormed]
theorem trainWithdraw (l : LinkId) : Statement (.trainWithdraw l) := by simp [Statement, Instr.WellFormed, Instr.wellFormed]
theorem trolleyDeparted (l : LinkId) : Statement (.trolleyDeparted l) :=
  by simp [Statement, Instr.WellFormed, Instr.wellFormed]
theorem slotQuery (l : LinkId) : Statement (.slotQuery l) := by simp [Statement, Instr.WellFormed, Instr.wellFormed]
theorem lotDoneReport (c : ClockId) : Statement (.lotDoneReport c) := by simp [Statement, Instr.WellFormed, Instr.wellFormed]
theorem headLotPresented (c : ClockId) : Statement (.headLotPresented c) :=
  by simp [Statement, Instr.WellFormed, Instr.wellFormed]
theorem noPresentedHead (c : ClockId) : Statement (.noPresentedHead c) :=
  by simp [Statement, Instr.WellFormed, Instr.wellFormed]
theorem lotWithdrawn (c : ClockId) : Statement (.lotWithdrawn c) := by simp [Statement, Instr.WellFormed, Instr.wellFormed]
theorem clockConfigure (l : LinkId) : Statement (.clockConfigure l) := by simp [Statement, Instr.WellFormed, Instr.wellFormed]
theorem start (l : LinkId) : Statement (.start l) := by simp [Statement, Instr.WellFormed, Instr.wellFormed]
theorem holdClock (l : LinkId) : Statement (.holdClock l) := by simp [Statement, Instr.WellFormed, Instr.wellFormed]
theorem resume (l : LinkId) : Statement (.resume l) := by simp [Statement, Instr.WellFormed, Instr.wellFormed]
theorem withdrawLot (l : LinkId) : Statement (.withdrawLot l) := by simp [Statement, Instr.WellFormed, Instr.wellFormed]
theorem strideEnd (c : ClockId) : Statement (.strideEnd c) := by simp [Statement, Instr.WellFormed, Instr.wellFormed]
theorem windowExpiry (c : ClockId) : Statement (.windowExpiry c) := by simp [Statement, Instr.WellFormed, Instr.wellFormed]
theorem restartDelayEnd (c : ClockId) : Statement (.restartDelayEnd c) :=
  by simp [Statement, Instr.WellFormed, Instr.wellFormed]
theorem bid (l : LinkId) : Statement (.bid l) := by simp [Statement, Instr.WellFormed, Instr.wellFormed]
theorem admittedBid (c : ClockId) : Statement (.admittedBid c) := by simp [Statement, Instr.WellFormed, Instr.wellFormed]
theorem placement (c : ClockId) : Statement (.placement c) := by simp [Statement, Instr.WellFormed, Instr.wellFormed]
theorem cancelOrder (l : LinkId) : Statement (.cancelOrder l) := by simp [Statement, Instr.WellFormed, Instr.wellFormed]
theorem cancelRequest (c : ClockId) : Statement (.cancelRequest c) := by simp [Statement, Instr.WellFormed, Instr.wellFormed]
theorem buyerNotice (c : ClockId) : Statement (.buyerNotice c) := by simp [Statement, Instr.WellFormed, Instr.wellFormed]
theorem endRequest (c : ClockId) : Statement (.endRequest c) := by simp [Statement, Instr.WellFormed, Instr.wellFormed]
theorem hallNoticeOpen (c : ClockId) : Statement (.hallNoticeOpen c) :=
  by simp [Statement, Instr.WellFormed, Instr.wellFormed]
theorem hallNoticeClosing (c : ClockId) : Statement (.hallNoticeClosing c) :=
  by simp [Statement, Instr.WellFormed, Instr.wellFormed]
theorem hallNoticeClosed (c : ClockId) : Statement (.hallNoticeClosed c) :=
  by simp [Statement, Instr.WellFormed, Instr.wellFormed]
theorem reservation (c : ClockId) : Statement (.reservation c) := by simp [Statement, Instr.WellFormed, Instr.wellFormed]
theorem grant (c : ClockId) : Statement (.grant c) := by simp [Statement, Instr.WellFormed, Instr.wellFormed]
theorem refuse (c : ClockId) : Statement (.refuse c) := by simp [Statement, Instr.WellFormed, Instr.wellFormed]
theorem deliverOutcome (c : ClockId) : Statement (.deliverOutcome c) :=
  by simp [Statement, Instr.WellFormed, Instr.wellFormed]
theorem orderEnded (c : ClockId) : Statement (.orderEnded c) := by simp [Statement, Instr.WellFormed, Instr.wellFormed]
theorem activityReport (c : ClockId) : Statement (.activityReport c) :=
  by simp [Statement, Instr.WellFormed, Instr.wellFormed]
theorem login (l : LinkId) : Statement (.login l) := by simp [Statement, Instr.WellFormed, Instr.wellFormed]
theorem logout (l : LinkId) : Statement (.logout l) := by simp [Statement, Instr.WellFormed, Instr.wellFormed]
theorem present (l : LinkId) : Statement (.present l) := by simp [Statement, Instr.WellFormed, Instr.wellFormed]
theorem ageExpiry (desk : Nat) : Statement (.ageExpiry desk) := by simp [Statement, Instr.WellFormed, Instr.wellFormed]
theorem snapshotRequest (l : LinkId) : Statement (.snapshotRequest l) :=
  by simp [Statement, Instr.WellFormed, Instr.wellFormed]
theorem buyerSet (l : LinkId) : Statement (.buyerSet l) := by simp [Statement, Instr.WellFormed, Instr.wellFormed]
theorem buyerRemove (l : LinkId) : Statement (.buyerRemove l) := by simp [Statement, Instr.WellFormed, Instr.wellFormed]
theorem creditLimit (l : LinkId) : Statement (.creditLimit l) := by simp [Statement, Instr.WellFormed, Instr.wellFormed]
theorem block (l : LinkId) : Statement (.block l) := by simp [Statement, Instr.WellFormed, Instr.wellFormed]
theorem unblock (l : LinkId) : Statement (.unblock l) := by simp [Statement, Instr.WellFormed, Instr.wellFormed]
theorem tariffLoad (l : LinkId) : Statement (.tariffLoad l) := by simp [Statement, Instr.WellFormed, Instr.wellFormed]
theorem closeInvoice (l : LinkId) : Statement (.closeInvoice l) := by simp [Statement, Instr.WellFormed, Instr.wellFormed]
theorem settled (l : LinkId) : Statement (.settled l) := by simp [Statement, Instr.WellFormed, Instr.wellFormed]
theorem openDay (l : LinkId) : Statement (.openDay l) := by simp [Statement, Instr.WellFormed, Instr.wellFormed]
theorem closeDay (l : LinkId) : Statement (.closeDay l) := by simp [Statement, Instr.WellFormed, Instr.wellFormed]
theorem statisticsRequest (l : LinkId) : Statement (.statisticsRequest l) :=
  by simp [Statement, Instr.WellFormed, Instr.wellFormed]
theorem stateEvent (c : ClockId) : Statement (.stateEvent c) := by simp [Statement, Instr.WellFormed, Instr.wellFormed]
theorem strideEvent (c : ClockId) : Statement (.strideEvent c) := by simp [Statement, Instr.WellFormed, Instr.wellFormed]
theorem awardEvent (c : ClockId) : Statement (.awardEvent c) := by simp [Statement, Instr.WellFormed, Instr.wellFormed]
theorem divisorEvent (c : ClockId) : Statement (.divisorEvent c) := by simp [Statement, Instr.WellFormed, Instr.wellFormed]
theorem supplyUnitEvent (c : ClockId) : Statement (.supplyUnitEvent c) :=
  by simp [Statement, Instr.WellFormed, Instr.wellFormed]
theorem frameTimerExpiry (c : ClockId) : Statement (.frameTimerExpiry c) :=
  by simp [Statement, Instr.WellFormed, Instr.wellFormed]
theorem bidCopy (src : ReportSource) : Statement (.bidCopy src) := by simp [Statement, Instr.WellFormed, Instr.wellFormed]
theorem outcomeCopy (src : ReportSource) : Statement (.outcomeCopy src) :=
  by simp [Statement, Instr.WellFormed, Instr.wellFormed]

end Sys2Proof.Laws.Operands
end

