-- ==== Sys2Proof/Laws/Steps.lean ====
section
/-! SUPPORT. Laws/Steps.lean: what taking a message, answering it, telling a role or a desk, and changing a clock's state come to, as
equations on the part, in the words of Safety.lean. -/

namespace Sys2Proof.Machine

/-! ### The lots SLOT STATUS counts (R22) -/

/-- A lot counts when it is not done or its done report has not been taken. -/
theorem Part.mem_notReportedDone {p : Part} {c : ClockId} {ids : List Nat} {i : Nat} :
    i ∈ p.notReportedDone c ids ↔ i ∈ ids ∧ (p.isOpen i = true ∨ i ∈ (p.channels.get c).clockToSupply) := by
  simp [Part.notReportedDone]

/-- With no done report in flight the lots that count are those that are not done. -/
theorem Part.notReportedDone_of_none {p : Part} {c : ClockId} (h : (p.channels.get c).clockToSupply = []) (ids : List Nat) :
    p.notReportedDone c ids = p.notDone ids := by
  simp [Part.notReportedDone, Part.notDone, h]

/-- Before the last done report is taken, at least one lot counts. -/
theorem Part.notReportedDone_pos {p : Part} {c : ClockId} {ids : List Nat} {i : Nat} (hi : i ∈ ids)
    (h : i ∈ (p.channels.get c).clockToSupply) : 1 ≤ (p.notReportedDone c ids).length :=
  List.length_pos_of_mem (Part.mem_notReportedDone.mpr ⟨hi, .inr h⟩)

/-! ### Reading a link after an update that leaves who serves what alone -/

/-- Placing an urgent message leaves a link's state and role. -/
@[simp] theorem Link.putUrgent_state (k : Link) (m : OutMsg) : (k.putUrgent m).state = k.state := by
  unfold Link.putUrgent; split <;> rfl
@[simp] theorem Link.putUrgent_role (k : Link) (m : OutMsg) : (k.putUrgent m).role = k.role := by
  unfold Link.putUrgent; split <;> rfl
@[simp] theorem Link.putUrgent_inbound (k : Link) (m : OutMsg) : (k.putUrgent m).inbound = k.inbound := by
  unfold Link.putUrgent; split <;> rfl
@[simp] theorem Link.putUrgent_bulk (k : Link) (m : OutMsg) : (k.putUrgent m).bulk = k.bulk := by
  unfold Link.putUrgent; split <;> rfl
@[simp] theorem Link.putUrgent_peerWait (k : Link) (m : OutMsg) : (k.putUrgent m).peerWait = k.peerWait := by
  unfold Link.putUrgent; split <;> rfl
@[simp] theorem Link.putBulk_state (k : Link) (m : OutMsg) : (k.putBulk m).state = k.state := by
  unfold Link.putBulk; split <;> rfl
@[simp] theorem Link.putBulk_role (k : Link) (m : OutMsg) : (k.putBulk m).role = k.role := by
  unfold Link.putBulk; split <;> rfl
@[simp] theorem Link.leave_peerWait (k : Link) : k.leave.peerWait = k.peerWait := by
  unfold Link.leave Link.flowOnLeave; split <;> rfl

/-- With room, an urgent message goes to the end of the queue. -/
theorem Link.putUrgent_room {k : Link} {m : OutMsg} (h : k.urgent.length < Config.urgentCap) :
    k.putUrgent m = { k with urgent := k.urgent ++ [m] } := by simp [Link.putUrgent, h]

/-- The same for the bulk queue. -/
theorem Link.putBulk_room {k : Link} {m : OutMsg} (h : k.bulk.length < Config.bulkCap) :
    k.putBulk m = { k with bulk := k.bulk ++ [m] } := by simp [Link.putBulk, h]

/-- Which link serves a role is read from the states and roles of the links alone. -/
theorem Part.serves_congr {p q : Part} (h : ∀ l, (q.links.get l).state = (p.links.get l).state ∧
    (q.links.get l).role = (p.links.get l).role) (l : LinkId) (r : Role) : q.serves l r = p.serves l r := by
  simp [Part.serves, h l]

theorem Part.linkOf_congr {p q : Part} (h : ∀ l, (q.links.get l).state = (p.links.get l).state ∧
    (q.links.get l).role = (p.links.get l).role) (r : Role) : q.linkOf r = p.linkOf r := by
  have : (fun l => q.serves l r) = fun l => p.serves l r := funext fun l => Part.serves_congr h l r
  simp [Part.linkOf, this]

/-- An update of one link that leaves its state and role alone leaves who serves what. -/
theorem Part.linkOf_upd {p q : Part} {l : LinkId} {f : Link → Link} (hq : q.links = p.links.upd l f)
    (hs : ∀ k, (f k).state = k.state) (hr : ∀ k, (f k).role = k.role) (r : Role) : q.linkOf r = p.linkOf r := by
  apply Part.linkOf_congr
  intro k
  rw [hq, PerLink.get_upd]
  split <;> simp [hs, hr]

/-- The link that serves a role is UP in it. -/
theorem Part.linkOf_up {p : Part} {r : Role} {l : LinkId} (h : p.linkOf r = some l) :
    (p.links.get l).state = .up ∧ (p.links.get l).role = some r := by
  have := List.find?_some h
  simpa [Part.serves] using this

/-! ### Taking a message -/

/-- A message that is taken leaves its queue and is handed to its unit. -/
theorem State.Takes.run_take {s : State} {l : LinkId} {r : Role} {k : Kind} {raw : List Byte} (h : s.Takes l r k raw)
    (f : Message → Part → Part) :
    run s (takeMessage l k f) = .next (s.after (f (parse raw) { s.part with links := s.part.unqueued l })) := by
  obtain ⟨hp, hu, hr, hh, hn, hk, _, hperm⟩ := h
  have hs : (s.part.links.get l).state.serving = true := by simp [hu, LinkState.serving]
  rw [run_high hp, takeMessage_head hs hh hk, judgeMessage_permitted hn (by simpa using hu) (by simpa using hr) hperm]
  rfl

/-- The same behind the check of the message's format. -/
theorem State.Takes.run_formed {s : State} {l : LinkId} {r : Role} {k : Kind} {raw : List Byte} (h : s.Takes l r k raw)
    (f : Message → Part → Part) :
    run s (takeMessage l k (ifWellFormed l k f)) =
      .next (s.after (f (parse raw) { s.part with links := s.part.unqueued l })) := by
  rw [h.run_take]
  obtain ⟨_, _, _, _, _, _, hv, _⟩ := h
  simp [ifWellFormed, hv]

/-- An answer to the message taken, when the link is UP and nothing has been placed on it since. -/
theorem Part.reply_taken {p q : Part} {l : LinkId} (hu : (p.links.get l).state = .up) (hq : q.links = p.unqueued l)
    (m : Message) (b : OutBody) : q.reply l m b = { q with links := p.answeredBy l ⟨m.tag, b⟩ } := by
  simp only [Part.reply, Part.postUrgent, Part.updLink, hq, Part.unqueued, Part.answeredBy, PerLink.upd_upd]
  congr 1
  apply PerLink.upd_congr
  simp [hu]

/-- A refusal of the message taken. -/
theorem Part.refuseMsg_taken {p : Part} {l : LinkId} (hu : (p.links.get l).state = .up) (m : Message) (e : Cause) :
    ({ p with links := p.unqueued l } : Part).refuseMsg l m e =
      { p with links := p.answeredBy l ⟨m.tag, .refused none e none⟩ } := by
  simp only [Part.refuseMsg]
  rw [Part.reply_taken hu rfl]

/-! ### Messages to a role -/

/-- Messages for a role placed one after another. -/
theorem Part.roleTold_roleTold (p : Part) (links : PerLink Link) (r : Role) (xs ys : List OutBody) :
    p.roleTold (p.roleTold links r xs) r ys = p.roleTold links r (xs ++ ys) := by
  unfold Part.roleTold
  cases p.linkOf r <;> simp

/-- No message for a role: the links are as they were. -/
@[simp] theorem Part.roleTold_nil (p : Part) (links : PerLink Link) (r : Role) : p.roleTold links r [] = links := by
  unfold Part.roleTold
  cases p.linkOf r with
  | none => rfl
  | some n => exact PerLink.upd_eq_self _ _ _ rfl

/-- Who serves what, after messages for a role. -/
theorem Part.linkOf_roleTold {p q t : Part} {r : Role} {bs : List OutBody} (hq : q.links = t.roleTold p.links r bs) (role : Role) :
    q.linkOf role = p.linkOf role := by
  unfold Part.roleTold at hq
  have hs : ∀ (bs : List OutBody) (k : Link), (bs.foldl (fun y b => y.putUrgent ⟨none, b⟩) k).state = k.state ∧
      (bs.foldl (fun y b => y.putUrgent ⟨none, b⟩) k).role = k.role := by
    intro bs
    induction bs with
    | nil => simp
    | cons b rest ih => intro k; simp [ih]
  cases h : t.linkOf r with
  | none => rw [h] at hq; exact Part.linkOf_congr (by simp [hq]) role
  | some n => rw [h] at hq; exact Part.linkOf_upd hq (fun k => (hs bs k).1) (fun k => (hs bs k).2) role

/-- A message to a role, when the link that serves it is that of another part `t`. -/
theorem Part.postRole_eq {p t : Part} {r : Role} (h : p.linkOf r = t.linkOf r) (b : OutBody) :
    p.postRole r ⟨none, b⟩ = { p with links := t.roleTold p.links r [b] } := by
  unfold Part.postRole Part.roleTold
  rw [h]
  cases hn : t.linkOf r with
  | none => rfl
  | some n =>
    have hu := (Part.linkOf_up (h.trans hn)).1
    simp only [Part.postUrgent, Part.updLink]
    congr 1
    apply PerLink.upd_congr
    simp [hu]

/-- Messages for the console placed one after another. -/
theorem Part.consoleTold_consoleTold (p : Part) (links : PerLink Link) (c : ClockId) (xs ys : List OutBody) :
    p.consoleTold (p.consoleTold links c xs) c ys = p.consoleTold links c (xs ++ ys) :=
  p.roleTold_roleTold links (.console c) xs ys

/-- No message for the console: the links are as they were. -/
@[simp] theorem Part.consoleTold_nil (p : Part) (links : PerLink Link) (c : ClockId) : p.consoleTold links c [] = links :=
  p.roleTold_nil links (.console c)

/-- Who serves what, after messages for the console. -/
theorem Part.linkOf_consoleTold {p q t : Part} {c : ClockId} {bs : List OutBody} (hq : q.links = t.consoleTold p.links c bs)
    (role : Role) : q.linkOf role = p.linkOf role :=
  Part.linkOf_roleTold hq role

/-- A message to the console, when the link that serves it is that of another part `t`. -/
theorem Part.toConsole_eq {p t : Part} {c : ClockId} (h : p.linkOf (.console c) = t.linkOf (.console c)) (b : OutBody) :
    p.toConsole c b = { p with links := t.consoleTold p.links c [b] } :=
  Part.postRole_eq h b

/-- A message that a unit makes for a link. -/
theorem Part.postUrgent_eq (p : Part) (l : LinkId) (m : OutMsg) :
    p.postUrgent l m = { p with links := p.links.upd l (fun k => k.told m) } := rfl

/-! ### Messages to the desk of a buyer (R96, R106, R108) -/

/-- An ORDER ENDED changes the links alone: it goes to the link of its target. -/
theorem sendOrderEnded_eq (l : LinkId) (tag : Option Nat) (b : OrderEndedBody) (p : Part) :
    sendOrderEnded l tag b p =
      let t := p.endedTarget l b
      { p with links := p.links.upd t.link (fun k => k.told ⟨tag, .orderEnded { b with desk := t.desk }⟩) } := rfl

/-- At CANCELLED and LOGOUT the target is that of the hand-over. -/
theorem Part.endedTarget_kept {p : Part} {l : LinkId} {b : OrderEndedBody} (h : b.reason.keepsTarget = true) :
    p.endedTarget l b = ⟨l, b.desk⟩ := by
  simp [Part.endedTarget, h]

/-- For every other reason it is the desk the buyer is bound to. -/
theorem Part.endedTarget_bound {p : Part} {l : LinkId} {b : OrderEndedBody} {t : DeskTarget} (h : b.reason.keepsTarget = false)
    (ht : p.boundTarget b.buyer = some t) : p.endedTarget l b = t := by
  simp [Part.endedTarget, h, ht]

/-- An unbound buyer's order ends at the target of the hand-over. -/
theorem Part.endedTarget_unbound {p : Part} {l : LinkId} {b : OrderEndedBody} (ht : p.boundTarget b.buyer = none) :
    p.endedTarget l b = ⟨l, b.desk⟩ := by
  simp [Part.endedTarget, ht]

/-- An outcome changes the links alone, and those only for a bound buyer. -/
theorem deliver_eq (buyer : Nat) (tag : Option Nat) (o : OutcomeBody) (p : Part) :
    deliver buyer tag o p = match p.boundTarget buyer with
      | none => p
      | some t => { p with links := p.links.upd t.link (fun k => k.told ⟨tag, o.message t.desk⟩) } := rfl

/-! ### A change of clock state -/

/-- A change of clock state as one equation: the clock, the console and the hand-overs. -/
theorem enterState_eq {p t : Part} {c : ClockId} (h : p.linkOf (.console c) = t.linkOf (.console c)) (st : ClockState) :
    enterState c st p =
      let q := p.updClock c (fun k => { k with state := st })
      { q with
        links := t.consoleTold p.links c [.clockState (q.clockStateBody c)],
        channels := p.channels.upd c (q.stateTold c) } := by
  have h' : (p.updClock c (fun k => { k with state := st })).linkOf (.console c) = t.linkOf (.console c) := h
  have ha : decide (st ≠ .idle ∧ st ≠ .ready) = st.active := by cases st <;> rfl
  have hf : ∀ q : Part, q.stateTold c = fun x =>
      { x with clockToDisplay := x.clockToDisplay ++ [.state (q.report c)],
               clockToAccount := x.clockToAccount ++
                 [.activity (decide ((q.clocks.get c).state ≠ .idle ∧ (q.clocks.get c).state ≠ .ready)) none] } :=
    fun _ => rfl
  unfold enterState
  simp only [Part.toConsole_eq h', Part.toDisplay, Part.toAccount, Part.updChannels, PerClock.upd_upd, hf]
  simp only [Part.updClock, PerClock.get_upd_self, ha]
  rfl

/-- The same in the word of the statements: the clock `k` with its new state written is entered. -/
theorem enterState_enters (c : ClockId) (st : ClockState) (p : Part) (k : ClockUnit)
    (hk : { p.clocks.get c with state := st } = k) : enterState c st p = p.enters c k := by
  rw [enterState_eq (t := p) rfl]
  have hc : p.clocks.upd c (fun x => { x with state := st }) = p.clocks.upd c (fun _ => k) :=
    PerClock.upd_congr _ _ _ _ hk
  simp only [Part.updClock, Part.enters, hc]

/-- The price a clock takes to READY is 0, or its own where the part keeps it (R25, R68, R71). -/
theorem RunRecord.readyPrice_cases (r : RunRecord) :
    r.readyPrice = 0 ∨ (Config.readyKeepsPrice = true ∧ r.readyPrice = r.price) := by
  unfold RunRecord.readyPrice
  split
  · exact .inr ⟨‹_›, rfl⟩
  · exact .inl rfl

/-- All that a clock going to READY with a SELLING lot does (R35, R42). -/
theorem enterReady_enters (c : ClockId) (p : Part) (k : ClockUnit)
    (hk : { p.clocks.get c with
      state := .ready, restartTimer := none,
      run := { (p.clocks.get c).run with position := 0, price := (p.clocks.get c).run.readyPrice, dwell := 0 } } = k) :
    enterReady c p = p.enters c k := by
  subst hk
  unfold enterReady
  rw [enterState_enters c .ready _ _ rfl]
  simp only [Part.enters, Part.updRun, Part.updClock, PerClock.upd_upd, PerClock.get_upd_self]
  rfl

/-- R147: in IDLE and READY SNAPSHOT shows the price 0, whatever the view holds. -/
theorem View.snapshotPrice_resting {v : View} (h : v.state = .idle ∨ v.state = .ready) : v.snapshotPrice = 0 := if_pos h

/-- R147: in every other state SNAPSHOT shows the view's price. -/
theorem View.snapshotPrice_active {v : View} (h : ¬ (v.state = .idle ∨ v.state = .ready)) : v.snapshotPrice = v.price := if_neg h

/-! ### Offering a position to the standing orders -/

/-- An order that the hall view, its conditions or its buyer's candidate keeps from firing is left as it is. -/
theorem offerOrder_passed {c : ClockId} {p : Part} {n : Nat}
    (h : ∀ o ∈ (p.clocks.get c).orders, (p.clocks.get c).run.hallView ≠ .opened ∨ p.orderMatches c o = false ∨
      ((p.clocks.get c).candidateOf o.buyer).isSome = true) : offerOrder c p n = p := by
  unfold offerOrder
  cases hn : (p.clocks.get c).orderNumbered n with
  | none => rfl
  | some o =>
    have hm : o ∈ (p.clocks.get c).orders := List.mem_of_find?_eq_some hn
    rcases h o hm with h | h | h
    · simp [h]
    · simp only [h]
      split <;> simp
    · simp only [h]
      split
      · rfl
      · split <;> simp

/-- With no order to fire and no window of 0 ms open, offering a position changes nothing. -/
theorem offerPosition_passed {c : ClockId} {p : Part}
    (h : ∀ o ∈ (p.clocks.get c).orders, (p.clocks.get c).run.hallView ≠ .opened ∨ p.orderMatches c o = false ∨
      ((p.clocks.get c).candidateOf o.buyer).isSome = true) (hw : (p.clocks.get c).state ≠ .window) :
    offerPosition c p = p := by
  have hf : ∀ ns : List Nat, ns.foldl (offerOrder c) p = p := by
    intro ns
    induction ns with
    | nil => rfl
    | cons n rest ih => rw [List.foldl_cons, offerOrder_passed h, ih]
  unfold offerPosition expireIfZero
  rw [hf]
  simp [hw]

end Sys2Proof.Machine
end

