-- ==== Sys2Proof/Tests/Slice0.lean ====
section
/-! SUPPORT. Slice0.lean: the model's own tests: the check of well-formed commands, worked examples of the manual, one step at a time,
and for every statement a state and operands that meet its hypotheses. -/

-- One theorem after another: many evaluations side by side need more threads than the memory limit leaves.
set_option Elab.async false

namespace Sys2Proof.Tests

open Sys2Proof Sys2Proof.Machine

/-! ### Small states -/

/-- A message of a kind code and a body, without qualifiers. -/
def raw (code : Nat) (body : List Byte) : List Byte := toField 1 code ++ toField 1 0 ++ body

/-- A link UP in a role, with messages waiting. -/
def link (r : Role) (inbound : List (List Byte)) : Link := { Link.reset with state := .up, role := some r, inbound := inbound }

/-- The part with link 1 UP in a role and one message at its head. -/
def onLink (r : Role) (m : List Byte) (p : Part) : State :=
  ⟨{ p with links := p.links.upd .l1 (fun _ => link r [m]) }, false, []⟩

/-- A state of a part with the pin high and no command waiting. -/
def high (p : Part) : State := ⟨p, false, []⟩

/-- Lot 7 of trolley 5, on sale. -/
def lot7 : Lot :=
  { trolley := 5, clock := .c1, grower := 9, product := 77, cls := 3, announced := 10, stems := 20, minPurchase := 2,
    minPrice := 250, suggested := 1200, remaining := 10, sold := 0, state := .selling, ceiling := some 1200 }

/-- Trolley 5 of train 2 in the slot of clock 1, with lot 7 alone. -/
def trolley5 : Trolley := { train := 2, clock := .c1, place := 1, lots := [7], state := .presented, picks := [⟨31, 4, 3⟩] }

/-- An admitted train of one trolley. -/
def train2 : Train := { clock := .c1, stated := 1, taken := 1, state := .admitted, live := 1, tag := none, clamped := 0 }

/-- A supply with one train, one trolley in the slot of clock 1, and one lot. -/
def supply (tr : Trolley) (t : Lot) : Supply :=
  { Supply.reset with
    trains := [(2, train2)], trolleys := [(5, tr)], lots := [(7, t)], queues := ⟨[7], [], [], []⟩,
    slots := ⟨some 5, none, none, none⟩ }

/-- A candidate of a press. -/
def candidate (buyer position arrival : Nat) : Candidate :=
  { buyer := buyer, point := 4, origin := .pressed ⟨.l2, 6⟩ none, position := position, asked := 2, quantity := 2,
    arrival := arrival }

/-- A standing order of buyer 40 on product 77. -/
def order1 : Order :=
  { number := 1, buyer := 40, product := 77, limit := 1200, asked := 2, count := 2, untilChange := true, point := 4,
    blocked := false, target := ⟨.l2, 8⟩, fired := false }

/-- The run record of clock 1 with lot 7 in run 4, at position 3. -/
def run4 : RunRecord :=
  { RunRecord.reset with
    lot := some 7, run := 4, startPrice := some 1200, step := some 13, minPrice := some 250, position := 3, price := 1161,
    hallView := .opened }

/-- Clock 1 in a state, with what it holds there. -/
def clockIn (st : ClockState) : ClockUnit :=
  match st with
  | .idle => { ClockUnit.reset with run := { RunRecord.reset with run := 4, hallView := .opened } }
  | .ready => { ClockUnit.reset with state := .ready, run := { run4 with position := 0, price := 0 } }
  | .running => { ClockUnit.reset with state := .running, run := run4, strideTimer := some 25 }
  | .floor => { ClockUnit.reset with state := .floor, run := { run4 with position := 74, price := 250 }, strideTimer := some 25 }
  | .window => { ClockUnit.reset with state := .window, run := run4, windowTimer := some 40, candidates := [candidate 12 3 1],
                                      arrivals := 1 }
  | .awarding => { ClockUnit.reset with state := .awarding, run := run4, candidates := [candidate 12 3 1, candidate 13 3 2],
                                        arrivals := 2, inFlight := some 1161 }
  | .restart => { ClockUnit.reset with state := .restart, run := { run4 with restartPrice := some 1187 },
                                       restartTimer := some 1000 }
  | .held => { ClockUnit.reset with state := .held,
                                    run := { run4 with heldFrom := some .running, holdCause := some .console } }

/-- Clock 1 as a given unit, with lot 7 before it. -/
def saleOf (k : ClockUnit) : Part :=
  { Part.reset with clocks := Part.reset.clocks.upd .c1 (fun _ => k), supply := supply trolley5 lot7 }

/-- Clock 1 in a state. -/
def sale (st : ClockState) : Part := saleOf (clockIn st)

/-- A hand-over of the Account Unit in flight to clock 1. -/
def handed (m : ToClock) (p : Part) : State :=
  high { p with channels := p.channels.upd .c1 (fun h => { h with accountToClock := [m] }) }

/-- A hand-over of clock 1 in flight to the Account Unit. -/
def handedBack (m : ToAccount) (p : Part) : State :=
  high { p with channels := p.channels.upd .c1 (fun h => { h with clockToAccount := [m] }) }

/-- Buyer 40, bound to a desk or not. -/
def buyer40 (desk : Option Nat) : Buyer :=
  { limit := 1000000, exposure := 0, lines := 0, members := PerClock.const true, point := 4, blocked := false, desk := desk,
    openInvoice := none, sequence := 1, orderMark := true }

/-- The region map of link 1: local desks 0 to 9 are hall desks 100 to 109. -/
def group : DeskGroup := { map := [⟨10, 100⟩], defaultClock := .c1, aging := true, age := 30 }

/-- An OPEN hall with a tariff, buyer 40 and desk group on link 1, desk 103 bound to the buyer or not. -/
def account (bound : Bool) : Account :=
  { Account.reset with
    hall := { Hall.reset with state := .opened, day := 3, mark := some 0 }, generation := 1,
    tariff := some (List.replicate 16 ⟨500, 10, 20⟩),
    buyers := [(40, buyer40 (if bound then some 103 else none))], desks := if bound then [(103, ⟨40, 0⟩)] else [],
    groups := Account.reset.groups.upd .l1 (fun _ => some group) }

/-- The part with that account, and the sets of the desk group. -/
def hall (bound : Bool) : Part :=
  { Part.reset with
    account := account bound,
    display := { Part.reset.display with
      sets := Part.reset.display.sets.upd .l1 (fun _ => some (PerClock.const Accumulator.zero)) } }

/-- Invoice 1 of buyer 40 on day 3, of one line in place 1. -/
def invoice1 (st : InvoiceState) : Invoice :=
  { number := ⟨3, 40, 1⟩, state := st, lines := [1], total := 500, cause := if st = .opened then none else some .requested,
    sentBefore := false }

/-- Its line. -/
def line1 : Line :=
  { invoice := ⟨3, 40, 1⟩, number := 1, lot := 7, clock := .c1, run := 4, product := 77, grower := 9, cls := 3, units := 2,
    stems := 20, price := 1161, goods := 480, commission := 0, container := 0, lineFee := 20, total := 500, generation := 1,
    awardTime := 90 }

/-- The account with that invoice, in the settlement queue when it is not open. -/
def invoiced (st : InvoiceState) (open_ : Option InvoiceNumber) : Part :=
  { hall true with
    account := { account true with
      buyers := [(40, { buyer40 (some 103) with exposure := 500, lines := 1, openInvoice := open_, sequence := 2 })],
      lines := [(1, line1)], invoices := [invoice1 st], openList := open_.toList,
      settleQueue := if open_.isSome then [] else [⟨3, 40, 1⟩],
      cursor := if st = .sending then some ⟨⟨3, 40, 1⟩, false, 0, false⟩ else none } }

/-- What an outcome of a step is about: its state. -/
def result (o : Host.Outcome State Fault Refusal) : Option State :=
  match o with
  | .next s => some s
  | _ => none

/-! ### Well-formed commands -/

/-- An age expiry names a desk of the hall: the last is taken, the next is refused. -/
theorem test_wellFormed_ageExpiry : Instr.WellFormed (.ageExpiry 511) ∧ ¬ Instr.WellFormed (.ageExpiry 512) := by decide

/-- A command that names links and clocks alone is always well formed. -/
theorem test_wellFormed_start : Instr.WellFormed (.start .l7) ∧ Instr.WellFormed (.strideEnd .c4) := by decide

/-! ### Frames, prices and lines (worked values of the manual) -/

/-- R172: the check of the bytes 31H to 39H, as the polynomial and preset give it. -/
theorem test_frameCheck : frameCheck [0x31#8, 0x32#8, 0x33#8, 0x34#8, 0x35#8, 0x36#8, 0x37#8, 0x38#8, 0x39#8] = 0x29B1#16 := by
  decide +kernel

/-- A frame with its check is good, and bad with a bit changed. -/
theorem test_readFrame :
    readFrame (messageFrame [0x0C#8, 0x00#8]) = .message [0x0C#8, 0x00#8] ∧ readFrame (withCheck [2#8]) = .keep ∧
    readFrame (withCheck [3#8]) = .wait ∧ readFrame (withCheck [4#8]) = .go ∧
    readFrame [0x02#8, 0x00#8, 0x00#8] = .bad := by decide +kernel

/-- spec 02 and 03, worked examples: prices of the run 1,200 by 13 with minimum 250, and the restart prices. -/
theorem test_prices :
    priceAt 1200 13 250 55 = 485 ∧ priceAt 1200 13 250 54 = 498 ∧ priceAt 537 13 250 22 = 251 ∧ priceAt 537 13 250 23 = 250 ∧
    firstFloor 537 13 250 = 23 ∧ restartPriceOf 498 3 13 1200 = 537 ∧ restartPriceOf 524 3 13 1200 = 563 := by decide

/-- R47, R48: the clamps of the worked window of spec 03. -/
theorem test_clamps :
    clampPosition 55 4 49 = 51 ∧ clampPosition 55 4 56 = 55 ∧ clampPosition 55 4 53 = 53 ∧ clampPosition 2 4 0 = 0 ∧
    clampQuantity 2 5 0 = 2 ∧ clampQuantity 2 5 4 = 5 ∧ clampQuantity 2 5 9 = 5 ∧ clampQuantity 2 5 3 = 3 := by decide

/-- R76 to R78: the largest line. -/
theorem test_largestLine :
    lineFigures ⟨2500, 9999, 9999⟩ 9999999 9999 1000 =
      ⟨9998999000100, 2499749750025, 99980001, 9999, 12498848740125⟩ := by decide

/-! ### The hypotheses of the statements are met -/

/-- Steps: a queue that is not empty, an empty one, and the pin low. -/
theorem witness_steps :
    ({ State.reset with pending := [.reset] } : State).pending = Instr.reset :: [] ∧ State.reset.pending = [] ∧
    State.reset.pinLow = false ∧ ({ State.reset with pinLow := true } : State).pinLow = true ∧
    (∀ c rest, State.reset.pending = c :: rest → c ≠ .reset ∧ c ≠ .resetPinHeldLow) ∧
    step State.reset = .next { State.reset with part := { Part.reset with now := 1 } } := by
  refine ⟨rfl, rfl, rfl, rfl, ?_, rfl⟩
  intro c rest h
  simp [State.reset] at h

/-! The invariant of a Clock Unit can be decided, part by part. -/

def decideRunOk (k : ClockUnit) : Decidable k.RunOk := by unfold ClockUnit.RunOk; infer_instance
def decideTimersOk (k : ClockUnit) : Decidable k.TimersOk := by unfold ClockUnit.TimersOk; infer_instance
def decideCandidatesOk (k : ClockUnit) : Decidable k.CandidatesOk := by unfold ClockUnit.CandidatesOk; infer_instance
def decideOrdersOk (k : ClockUnit) : Decidable k.OrdersOk := by unfold ClockUnit.OrdersOk; infer_instance

/-- A Clock Unit is as it should be when every part of its invariant is decided so. -/
theorem clockOk_of {k : ClockUnit}
    (h : (@decide _ (decideRunOk k) && @decide _ (decideTimersOk k) && @decide _ (decideCandidatesOk k) &&
      @decide _ (decideOrdersOk k)) = true) : k.Ok := by
  simp only [Bool.and_eq_true, decide_eq_true_eq] at h
  exact ⟨h.1.1.1, h.1.1.2, h.1.2, h.2⟩

/-- Every clock state is met by a Clock Unit as it should be. -/
theorem witness_clockOk : ∀ st, (clockIn st).state = st ∧ (clockIn st).Ok := by
  intro st
  cases st <;> exact ⟨rfl, clockOk_of (by decide +kernel)⟩

/-- A part with clock 1 in a window whose every invariant of the Clock Units holds, and a step it takes. -/
theorem witness_ClocksKept : (sale .window).ClocksOk ∧
    ∃ t, step ⟨sale .window, false, [.windowExpiry .c1]⟩ = .next t ∧ (t.part.clocks.get .c1).state = .awarding := by
  refine ⟨?_, _, rfl, by decide +kernel⟩
  intro c
  cases c <;> exact clockOk_of (by decide +kernel)

/-! The invariants of the Supply Unit and of the invoices can be decided, part by part. -/

def decideTrainsOk (s : Supply) : Decidable s.TrainsOk := by unfold Supply.TrainsOk; infer_instance
def decideLotsOk (s : Supply) : Decidable s.LotsOk := by unfold Supply.LotsOk; infer_instance
def decideSlotsOk (s : Supply) : Decidable s.SlotsOk := by unfold Supply.SlotsOk; infer_instance
def decideQueuesOk (p : Part) : Decidable p.QueuesOk := by unfold Part.QueuesOk; infer_instance
def decideHandsOk (p : Part) : Decidable p.HandsOk := by unfold Part.HandsOk Part.headIs; infer_instance
def decideLinesOk (a : Account) : Decidable a.LinesOk := by unfold Account.LinesOk; infer_instance
def decideCreditOk (a : Account) : Decidable a.CreditOk := by unfold Account.CreditOk; infer_instance
def decideQueueOk (a : Account) : Decidable a.QueueOk := by unfold Account.QueueOk; infer_instance

/-- The Supply Unit is as it should be when every part of its invariant is decided so. -/
theorem supplyOk_of {p : Part}
    (h : (@decide _ (decideTrainsOk p.supply) && @decide _ (decideLotsOk p.supply) && @decide _ (decideSlotsOk p.supply) &&
      @decide _ (decideQueuesOk p) && @decide _ (decideHandsOk p)) = true) : p.SupplyOk := by
  simp only [Bool.and_eq_true, decide_eq_true_eq] at h
  exact ⟨h.1.1.1.1, h.1.1.1.2, h.1.1.2, h.1.2, h.2⟩

/-- The same for the invoices. -/
theorem invoicesOk_of {a : Account}
    (h : (@decide _ (decideLinesOk a) && @decide _ (decideCreditOk a) && @decide _ (decideQueueOk a)) = true) : a.InvoicesOk := by
  simp only [Bool.and_eq_true, decide_eq_true_eq] at h
  exact ⟨h.1.1, h.1.2, h.2⟩

/-- The tables are as they should be when the kernel decides so of what they hold. -/
theorem tablesOk_of {p : Part}
    (h : (Table.rising p.supply.trains = true ∧ p.supply.trains.length ≤ Config.maxTrains) ∧
      (Table.rising p.supply.trolleys = true ∧ p.supply.trolleys.length ≤ Config.maxTrolleys) ∧
      (Table.rising p.supply.lots = true ∧ p.supply.lots.length ≤ Config.maxLots) ∧
      (Table.rising p.account.buyers = true ∧ p.account.buyers.length ≤ Config.maxBuyers) ∧
      (Table.rising p.account.lines = true ∧ p.account.lines.length ≤ Config.maxLines) ∧
      (∀ e ∈ p.account.lines, 1 ≤ e.1 ∧ e.1 ≤ Config.maxLines) ∧
      Table.rising p.account.desks = true ∧ p.account.invoices.length ≤ Config.maxInvoices) : p.TablesOk := by
  obtain ⟨h1, h2, h3, h4, h5, h6, h7, h8⟩ := h
  exact ⟨h1, h2, h3, h4, h5, fun i x hf => h6 (i, x) (Table.mem_of_find hf), h7, h8⟩

/-- The award of clock 1's decision: every invariant of the Supply Unit holds, and the step sells two of the ten units. -/
theorem witness_SupplyKept :
    let p : Part := { sale .awarding with
      channels := Part.reset.channels.upd .c1 (fun h => { h with accountToClock := [.grant 9] }) }
    p.ClocksOk ∧ p.TablesOk ∧ p.SupplyOk ∧
    ∃ t, step ⟨p, false, [.grant .c1]⟩ = .next t ∧
      (t.part.lot 7).map (fun x => (x.announced, x.remaining, x.sold)) = some (10, 8, 2) := by
  refine ⟨?_, tablesOk_of (by decide +kernel), ?_, _, rfl, by decide +kernel⟩
  · intro c
    cases c <;> exact clockOk_of (by decide +kernel)
  · exact supplyOk_of (by decide +kernel)

/-- The invoices of the small states are as they should be, in every state of the one invoice. -/
theorem invoicesOk_invoiced :
    (∀ st, st ≠ .opened → (invoiced st none).account.InvoicesOk) ∧ (invoiced .opened (some ⟨3, 40, 1⟩)).account.InvoicesOk ∧
    (∀ b, (hall b).account.InvoicesOk) := by
  refine ⟨?_, ?_, ?_⟩
  · intro st h
    cases st <;> first
      | exact absurd rfl h
      | exact invoicesOk_of (by decide +kernel)
  · exact invoicesOk_of (by decide +kernel)
  · intro b
    cases b <;> exact invoicesOk_of (by decide +kernel)

/-- CLOSE INVOICE on the account with an open invoice: every invariant of the invoices holds, and the step begins to send it. -/
theorem witness_InvoicesKept :
    let s := onLink .settlement (raw 30 (toField 3 40)) (invoiced .opened (some ⟨3, 40, 1⟩))
    s.part.TablesOk ∧ s.part.account.InvoicesOk ∧
    ∃ t, step { s with pending := [.closeInvoice .l1] } = .next t ∧ t.part.account.settleQueue = [⟨3, 40, 1⟩] ∧
      (t.part.account.invoice ⟨3, 40, 1⟩).map Invoice.state = some .awaiting :=
  ⟨tablesOk_of (by decide +kernel), invoicesOk_invoiced.2.1, _, rfl, by decide +kernel⟩

/-- A part with an UP link whose links and roles are as they should be, and a step it takes. -/
theorem witness_LinksAndRolesKept :
    let p : Part := { Part.reset with links := Part.reset.links.upd .l1 (fun _ => link .settlement []) }
    p.LinksOk ∧ p.RolesOk ∧ ∃ t, step ⟨p, false, [.keepMarker .l1]⟩ = .next t := by
  refine ⟨?_, ⟨?_, ?_, ?_, ?_, by decide +kernel⟩, _, rfl⟩
  · intro l
    cases l <;>
      exact ⟨by decide +kernel, by decide +kernel, by decide +kernel, by decide +kernel, by decide +kernel,
             by intro c; cases c <;> decide +kernel, by unfold Statistics.Ok; decide +kernel⟩
  · intro r l k _ hl hk
    cases l <;> cases k <;> first | rfl | (simp [Part.serves, Part.reset, link, PerLink.get, PerLink.upd, PerLink.const,
                                                 Link.reset] at hl hk)
  all_goals (intro l; cases l <;> decide +kernel)

/-- A part with a bound desk and a lot whose tables and bindings are as they should be, and a step it takes. -/
theorem witness_TablesAndBindingsKept :
    let p : Part := { hall true with supply := supply trolley5 lot7 }
    p.TablesOk ∧ p.BindingsOk ∧ ∃ t, step ⟨p, false, [.ageExpiry 103]⟩ = .next t := by
  refine ⟨?_, ⟨?_, ?_⟩, _, rfl⟩
  · exact tablesOk_of (by decide +kernel)
  · intro i b h
    by_cases hi : 103 = i
    · subst hi
      simp [hall, account, Table.find] at h
      subst h
      exact ⟨by decide +kernel, buyer40 (some 103), by decide +kernel, rfl⟩
    · simp [hall, account, Table.find, hi] at h
  · intro u r i h hd
    by_cases hu : 40 = u
    · subst hu
      simp [hall, account, Part.buyer, Table.find] at h
      subst h
      simp [buyer40] at hd
      subst hd
      exact ⟨⟨40, 0⟩, by decide +kernel, rfl⟩
    · simp [hall, account, Part.buyer, Table.find, hu] at h

/-- After reset the Display Unit is as it should be, and a frame timer's end is a step from there. -/
theorem witness_DisplayKept : (hall false).DisplayOk ∧
    ∃ t, step ⟨hall false, false, [.frameTimerExpiry .c2]⟩ = .next t ∧ (t.part.displayClock .c2).sequence = 2 := by
  refine ⟨⟨?_, ?_⟩, _, rfl, by decide +kernel⟩
  · intro c
    cases c <;> (unfold DisplayClock.Ok; decide +kernel)
  · intro l c
    cases l <;> cases c <;> (unfold Accumulator.Ok; decide +kernel)

/-- Prices and clamps: each clause, at the positions and quantities where they meet. -/
theorem witness_PricesAndClamps :
    (250 ≤ 1200 ∧ 73 * 13 ≤ 1200 - 250 ∧ 1200 - 250 < 74 * 13 ∧ 65534 ≤ 65534 ∧ 65535 ≤ 65535) ∧
    (55 ≤ 56 ∧ 50 < 55 - 4 ∧ 55 - 4 ≤ 51 ∧ 51 ≤ 55) ∧
    (2 ≤ 5 ∧ 1 < 2 ∧ 2 ≤ 5 - 2 ∧ 5 < 6 ∧ 2 ≤ 3 ∧ 2 ≤ 5 - 3 ∧ 4 < 5 ∧ 5 - 4 < 2) := by decide

/-- A line: a tariff with an entry for the class, and a reservation at the bounds. -/
theorem witness_LineFigures :
    (account true).tariff = some (List.replicate 16 ⟨500, 10, 20⟩) ∧
    (List.replicate 16 (⟨500, 10, 20⟩ : TariffEntry))[15]? = some ⟨500, 10, 20⟩ ∧
    ((account true).figures ⟨40, 7, 77, 9, 15, 1, 5, 1, 4⟩).goods = 1 ∧
    ((account true).figures ⟨40, 7, 77, 9, 15, 1, 4, 1, 4⟩).goods = 0 := by decide +kernel

/-- Two regions, the second cut by the end of the hall: both translations, at the regions' ends. -/
theorem witness_DeskTranslationsInverse :
    let m : List Region := [⟨10, 100⟩, ⟨20, 500⟩]
    selfOverlap m = false ∧ localToHall m 9 = some 109 ∧ localToHall m 10 = some 500 ∧ localToHall m 21 = some 511 ∧
    localToHall m 22 = none ∧ hallToLocal m 511 = some 21 ∧ hallToLocal m 110 = none := by decide

/-- Frames: a message of each length bound, and one frame of each bad form. -/
theorem witness_FramesReadAndMade :
    1 ≤ (raw 12 []).length ∧ (List.replicate 255 (0#8)).length ≤ 255 ∧ ([1#8, 2#8] : List Byte).length < 3 ∧
    (frameCheck ([2#8, 0#8, 0#8].take 1)).toNat ≠ fieldAt [2#8, 0#8, 0#8] 1 2 ∧ fieldAt [0#8] 0 1 < 1 ∧ 4 < fieldAt [5#8] 0 1 ∧
    (2 ≤ fieldAt [2#8, 0#8, 0#8, 0#8] 0 1 ∧ 3 < ([2#8, 0#8, 0#8, 0#8] : List Byte).length) ∧
    (fieldAt [1#8, 0#8, 0#8] 0 1 = 1 ∧ fieldAt [1#8, 0#8, 0#8] 2 1 = 0) ∧
    fieldAt [1#8, 0#8, 2#8, 0#8, 0#8, 0#8] 2 1 + 5 ≠ 6 := by decide +kernel

/-! ### The hypotheses: links -/

/-- A message of a format and kind that the role permits is taken, whatever the rest of the part. -/
theorem takes_onLink {r : Role} {k : Kind} {m : List Byte}
    (h : kindOf (parse m).code = some k ∧ (parse m).verdict k = true ∧ permitted r k = true ∧ m.length ≤ Config.maxMessage)
    (p : Part) : (onLink r m p).Takes .l1 r k m :=
  ⟨rfl, rfl, rfl, rfl, h.2.2.2, h.1, h.2.1, h.2.2.1⟩

/-- The reset part with link 1 as given. -/
def withLink (k : Link) : State := high { Part.reset with links := Part.reset.links.upd .l1 (fun _ => k) }

/-- Link 1 of a state. -/
def link1 (s : State) : Link := s.part.links.get .l1

/-- Lines and keep timers: DOWN, not DOWN, a keep timer that runs and one that does not. -/
theorem witness_LineAndKeepTimers :
    State.reset.pinLow = false ∧ (link1 State.reset).state = .down ∧ (link1 State.reset).keepTimer = none ∧
    (link1 (withLink { link .settlement [] with keepTimer := some 100 })).state ≠ .down ∧
    (link1 (withLink { link .settlement [] with keepTimer := some 100 })).keepTimer = some 100 := by decide

/-- Frames: a bad one, and a message at 10, 11, 15 and 16 waiting. -/
theorem witness_FramesAndMarkersTaken :
    let s (n : Nat) := withLink (link .settlement (List.replicate n [0#8]))
    (s 0).pinLow = false ∧ (link1 (s 0)).state ≠ .down ∧ readFrame [0#8] = .bad ∧
    (link1 (s 10)).inbound.length < 11 ∧ 11 ≤ (link1 (s 11)).inbound.length ∧ (link1 (s 15)).inbound.length < 16 ∧
    16 ≤ (link1 (s 16)).inbound.length ∧ (withLink (link .display [])).part.serves .l1 .settlement = false := by
  decide +kernel

/-- A loss timer that runs, with no role and with each role that a unit is told of, and none; a FILLING train or none. -/
theorem witness_LinkLost :
    let s (r : Option Role) := withLink { link .settlement [] with role := r, lossTimer := some 400 }
    (link1 State.reset).lossTimer = none ∧ (link1 (s none)).lossTimer = some 400 ∧ (link1 (s none)).role = none ∧
    (link1 (s (some .logistics))).role = some .logistics ∧ (s none).part.supply.filling = none ∧
    (supply trolley5 lot7).filling = none ∧
    ({ Supply.reset with trains := [(2, { train2 with state := .filling })] } : Supply).filling =
      some (2, { train2 with state := .filling }) := by decide +kernel

/-- A lost DESK GROUP link with a bound desk of its map, whose buyer has a record. -/
theorem witness_LostDeskGroupUnbinds :
    let s := high { hall true with
      links := (hall true).links.upd .l1 (fun _ => { link .deskGroup [] with lossTimer := some 400 }) }
    (link1 s).lossTimer = some 400 ∧ (link1 s).role = some .deskGroup ∧ s.part.account.groups.get .l1 = some group ∧
    s.part.account.desks.find 103 = some ⟨40, 0⟩ ∧ hallToLocal group.map 103 = some 3 ∧
    s.part.buyer 40 = some (buyer40 (some 103)) := by decide +kernel

/-- A lost console, with its clock in every state, and a hold pending already. -/
theorem witness_LostConsoleHoldsClock :
    (∀ st, let s := high { sale st with
             links := (sale st).links.upd .l1 (fun _ => { link (.console .c1) [] with lossTimer := some 400 }) }
      (link1 s).lossTimer = some 400 ∧ (link1 s).role = some (.console .c1) ∧ (s.part.clocks.get .c1).state = st ∧
      (s.part.clocks.get .c1).run.pendingHold = false) ∧
    (let k := { clockIn .window with run := { run4 with pendingHold := true, holdCause := some .console } }
     (k.state = .window ∧ k.run.pendingHold = true)) := by
  refine ⟨?_, by decide⟩
  intro st
  cases st <;> decide

/-- Sending: each choice of the transmitter, at the bounds of the service count; a bulk message sent while an invoice is SENDING. -/
theorem witness_FrameSentChoice :
    let m : OutMsg := ⟨none, .changeNotice .c1⟩
    let k : Link := { link .settlement [] with urgent := [m], bulk := [m] }
    let s := onLink .settlement [] (invoiced .sending none)
    Link.reset.state = .down ∧ ({ k with flowPending := some .wait } : Link).flowPending = some .wait ∧
    ({ k with keepPending := true } : Link).flowPending = none ∧ ({ k with peerWait := true } : Link).peerWait = true ∧
    ({ Link.reset with state := .syncing } : Link).state.serving = false ∧ (link .settlement []).urgent = [] ∧
    (k.flowPending = none ∧ k.keepPending = false ∧ k.peerWait = false ∧ k.state.serving = true) ∧
    (k.weight.bound = some 8 ∧ ({ k with service := 7 } : Link).service < 8 ∧ 8 ≤ ({ k with service := 8 } : Link).service) ∧
    Weight.urgentFirst.bound = none ∧ (withLink (link .display [])).part.serves .l1 .settlement = false ∧
    s.part.linkOf .settlement = some .l1 ∧ s.part.account.cursor = some ⟨⟨3, 40, 1⟩, false, 0, false⟩ ∧
    s.part.account.invoice ⟨3, 40, 1⟩ = some (invoice1 .sending) ∧ s.part.account.InvoicesOk := by
  refine ⟨by decide, by decide, by decide, by decide, by decide, by decide, by decide, by decide, by decide, by decide,
          by decide, by decide, by decide +kernel, invoicesOk_invoiced.1 .sending (by decide)⟩

/-- Messages of an unknown kind, of 160 and of 161 bytes, of a known kind in WAITING and UP, permitted or not, and malformed. -/
theorem witness_MessagesJudgedByFormAndRole :
    let s (k : Link) := withLink k
    kindOf (parse (raw 9 [])).code = none ∧ (9#8 :: List.replicate 159 (0#8)).length ≤ 160 ∧
    160 < (9#8 :: List.replicate 160 (0#8)).length ∧ kindOf (parse (raw 12 [])).code = some .holdClock ∧
    (link1 (s { link .settlement [raw 12 []] with state := .waiting, role := none })).state.serving = true ∧
    (link1 (s (link .settlement [raw 12 []]))).inbound.head? = some (raw 12 []) ∧
    permitted .settlement .holdClock = false ∧ permitted (.console .c1) .holdClock = true ∧
    (parse (raw 12 [0#8])).verdict .holdClock = false ∧ kindOf (parse (raw 1 [])).code = some .announce ∧
    kindOf (parse (raw 18 [])).code = some .login ∧ (parse (raw 18 [])).verdict .login = false ∧
    kindOf (parse (raw 16 [])).code = some .bid ∧ (parse (raw 16 [])).verdict .bid = false := by decide +kernel

/-- Link 1 in WAITING with one message at its head. -/
def waiting (m : List Byte) (p : Part) : State :=
  high { p with links := p.links.upd .l1 (fun _ => { link .settlement [m] with state := .waiting, role := none }) }

/-- The ANNOUNCE of each role on a link in WAITING: admitted, and refused for each cause; the units' invariants that some roles ask for. -/
theorem witness_AnnounceTaken :
    let admitted (b : List Byte) (p : Part) : Bool := match readClaim b with
      | none => false
      | some k =>
        let s := waiting (raw 1 b) p
        decide ((link1 s).state = .waiting) && decide ((link1 s).inbound.head? = some (raw 1 b)) &&
        decide ((raw 1 b).length ≤ 160) && decide (kindOf (parse (raw 1 b)).code = some .announce) &&
        (parse (raw 1 b)).verdict .announce && (weightOf (fieldAt (parse (raw 1 b)).body 1 1)).isSome &&
        decide (readClaim (parse (raw 1 b)).body = some k) && (s.part.claimProblem .l1 k).isNone
    let regions : List Byte := [0#8, 10#8, 0#8, 100#8]
    admitted [1#8, 0#8] Part.reset = true ∧ admitted [2#8, 4#8, 4#8] Part.reset = true ∧
    admitted ([3#8, 8#8, 1#8, 1#8, 30#8, 1#8] ++ regions) Part.reset = true ∧ admitted [4#8, 16#8] (hall true) = true ∧
    admitted [5#8, 255#8, 1#8] Part.reset = true ∧ admitted [6#8, 0#8, 0#8] Part.reset = true ∧
    (parse (raw 1 [1#8])).verdict .announce = false ∧ readClaim [2#8, 0#8, 5#8] = none ∧ weightOf 5 = none ∧
    readClaim [5#8, 0#8, 0#8] = none ∧ readClaim [7#8, 0#8] = none ∧
    (Role.logistics.limited = true ∧
      ({ Part.reset with links := Part.reset.links.upd .l2 (fun _ => link .logistics []) } : Part).serves .l2 .logistics = true) ∧
    mapOk [] = false ∧ mapOk [⟨512, 511⟩] = true ∧ mapOk [⟨513, 0⟩] = false ∧ mapOk [⟨1, 512⟩] = false ∧
    selfOverlap [⟨10, 100⟩, ⟨10, 109⟩] = true ∧
    ((hall true).account.groups.get .l1 = some group ∧ mapsMeet [⟨1, 109⟩] group.map = true ∧
      mapsMeet [⟨1, 110⟩] group.map = false) := by decide +kernel

/-- After reset the Display Unit is as it should be. -/
theorem displayOk_reset : Part.reset.DisplayOk := by
  refine ⟨?_, ?_⟩
  · intro c
    cases c <;> (unfold DisplayClock.Ok; decide +kernel)
  · intro l c
    cases l <;> cases c <;> (unfold Accumulator.Ok; decide +kernel)

/-- The invariants that the admission of a SETTLEMENT and of a DISPLAY link asks for. -/
theorem witness_AnnounceTaken_units :
    (∀ m, (waiting m (hall true)).part.account.InvoicesOk) ∧ (∀ m, (waiting m Part.reset).part.DisplayOk) :=
  ⟨fun _ => invoicesOk_invoiced.2.2 true, fun _ => displayOk_reset⟩

/-- STATISTICS REQUEST of the last link and of one above it. -/
theorem witness_StatisticsRead :
    (∀ p, (onLink .supervision (raw 36 [7#8, 1#8]) p).Takes .l1 .supervision .statisticsRequest (raw 36 [7#8, 1#8])) ∧
    linkNumber .l7 = fieldAt (parse (raw 36 [7#8, 1#8])).body 0 1 ∧
    (∀ p, (onLink .supervision (raw 36 [8#8, 0#8]) p).Takes .l1 .supervision .statisticsRequest (raw 36 [8#8, 0#8])) ∧
    7 < fieldAt (parse (raw 36 [8#8, 0#8])).body 0 1 :=
  ⟨takes_onLink (by decide +kernel), by decide, takes_onLink (by decide +kernel), by decide⟩

/-! ### The hypotheses: logistics -/

/-- A part whose supply is as given. -/
def stocked (s : Supply) : Part := { Part.reset with supply := s }

/-- A supply with one train FILLING, with one entry of those stated taken: trolley 4 with lot 3. -/
def filling (stated : Nat) : Supply :=
  { Supply.reset with
    trains := [(2, { train2 with state := .filling, stated := stated, taken := 1, live := 0 })],
    trolleys := [(4, { trolley5 with lots := [3], state := .staged, picks := [] })],
    lots := [(3, { lot7 with trolley := 4, state := .staged, ceiling := none })] }

/-- The body of one lot entry: lot, units, stems, minimum purchase, minimum price and suggested start price. -/
def entryBody (lot units stems purchase price suggested : Nat) : List Byte :=
  toField 4 lot ++ toField 4 9 ++ toField 4 77 ++ toField 1 3 ++ toField 2 units ++ toField 2 stems ++ toField 2 purchase ++
  toField 4 price ++ toField 4 suggested

/-- TROLLEY ENTRY of train 2 for a trolley, with one lot. -/
def entry (trolley : Nat) (lot : List Byte) : List Byte := raw 3 (toField 2 2 ++ toField 2 trolley ++ toField 1 1 ++ lot)

/-- TRAIN HEADER: read at the bounds of the trolley count, and not read; no train FILLING and one; a train id that is live. -/
theorem witness_TrainHeaderTaken :
    let m (id clock n : Nat) : List Byte := raw 2 (toField 2 id ++ toField 1 clock ++ toField 1 n)
    (∀ p, (onLink .logistics (m 3 1 16) p).Takes .l1 .logistics .trainHeader (m 3 1 16)) ∧
    readTrainHeader (parse (m 3 1 16)).body = some (3, .c1, 16) ∧ readTrainHeader (parse (m 3 4 1)).body = some (3, .c4, 1) ∧
    readTrainHeader (parse (m 3 1 17)).body = none ∧ readTrainHeader (parse (m 3 5 1)).body = none ∧
    (supply trolley5 lot7).filling = none ∧ (supply trolley5 lot7).trains.has 3 = false ∧
    (supply trolley5 lot7).trains.has 2 = true ∧
    (filling 2).filling = some (2, { train2 with state := .filling, stated := 2, taken := 1, live := 0 }) ∧
    Table.has (Table.del (filling 2).trains 2) 3 = false :=
  ⟨takes_onLink (by decide +kernel), by decide +kernel⟩

/-- TROLLEY ENTRY: staged with more entries due, the last of its train, and failing each check; a lot at the bounds. -/
theorem witness_TrolleyEntries :
    let good := entry 6 (entryBody 8 10 20 2 250 1200)
    let t (stated : Nat) : Train := { train2 with state := .filling, stated := stated, taken := 1, live := 0 }
    let problem (s : Supply) (m : List Byte) : Option Cause :=
      entryProblem s (t 2) (fieldAt (parse m).body 2 2) (fieldAt (parse m).body 4 1) (readLotEntries (parse m).body)
    (∀ p, (onLink .logistics good p).Takes .l1 .logistics .trolleyEntry good) ∧
    (onLink .logistics good (stocked (filling 2))).part.TablesOk ∧ (onLink .logistics good (stocked (filling 2))).part.SupplyOk ∧
    fieldAt (parse good).body 0 2 = 2 ∧ (filling 3).filling = some (2, t 3) ∧ (t 3).taken + 1 ≠ (t 3).stated ∧
    (filling 2).filling = some (2, t 2) ∧ (t 2).taken + 1 = (t 2).stated ∧ problem (filling 2) good = none ∧
    problem (filling 2) (entry 0 (entryBody 8 10 20 2 250 1200)) = some .malformed ∧
    problem (filling 2) (entry 6 (entryBody 8 0 20 2 250 1200)) = some .malformed ∧
    problem (filling 2) (entry 6 (entryBody 3 10 20 2 250 1200)) = some .malformed ∧
    problem { filling 2 with trolleys := [(6, trolley5)] } good = some .malformed ∧
    problem { filling 2 with queues := ⟨List.replicate 126 1, [], [], []⟩ } good = none ∧
    problem { filling 2 with queues := ⟨List.replicate 127 1, [], [], []⟩ } good = some .noRoom ∧
    Supply.reset.filling = none ∧ Supply.reset.discard ≠ some 2 ∧ ({ Supply.reset with discard := some 2 } : Supply).discard = some 2 ∧
    LotEntry.ok ⟨8, 9, 77, 15, 9999, 1000, 0, 9999999, 10000000⟩ = true ∧ LotEntry.ok ⟨8, 9, 77, 0, 1, 1, 2, 1, 0⟩ = true :=
  ⟨takes_onLink (by decide +kernel), tablesOk_of (by decide +kernel), supplyOk_of (by decide +kernel), by decide +kernel⟩

/-- TROLLEY ARRIVED at the first and last place, and past them; a trolley in each state, on its clock and another's, before the head lot's
trolley and behind it. -/
theorem witness_TrolleyArrivedTaken :
    let m (place : Nat) : List Byte := raw 4 (toField 2 5 ++ toField 1 place)
    let p (st : TrolleyState) (ls : LotState) : Part :=
      stocked { supply { trolley5 with state := st } { lot7 with state := ls } with slots := PerClock.const none }
    let behind : Supply := { (p .announced .announced).supply with queues := ⟨[9, 7], [], [], []⟩ }
    (∀ q, (onLink .logistics (m 1) q).Takes .l1 .logistics .trolleyArrived (m 1)) ∧
    fieldAt (parse (m 1)).body 0 2 = 5 ∧ clockOf (fieldAt (parse (m 1)).body 2 1) = some .c1 ∧
    clockOf (fieldAt (parse (m 4)).body 2 1) = some .c4 ∧ fieldAt (parse (m 0)).body 2 1 < 1 ∧
    4 < fieldAt (parse (m 5)).body 2 1 ∧ Part.reset.trolley 5 = none ∧
    (p .staged .staged).trolley 5 = some { trolley5 with state := .staged } ∧
    (p .announced .announced).trolley 5 = some { trolley5 with state := .announced } ∧
    (p .presented .presented).trolley 5 = some trolley5 ∧
    (stocked (supply trolley5 lot7)).supply.slots.get .c1 = some 5 ∧
    (p .announced .announced).supply.slots.get .c1 = none ∧
    (p .announced .announced).notDone trolley5.lots ≠ [] ∧ (p .announced .withdrawn).notDone trolley5.lots = [] ∧
    ((p .announced .announced).supply.queues.get .c1).head? = some 7 ∧ trolley5.lots.contains 7 = true ∧
    (behind.queues.get .c1).head? = some 9 ∧ trolley5.lots.contains 9 = false ∧ behind.slots.get .c1 = none :=
  ⟨takes_onLink (by decide +kernel), by decide +kernel⟩

/-- Withdrawals by logistics: of a lot in each state, and of a train FILLING and ADMITTED. -/
theorem witness_WithdrawnByLogistics :
    let m (id : Nat) : List Byte := raw 5 (toField 4 id)
    let w (id : Nat) : List Byte := raw 6 (toField 2 id)
    let p (ls : LotState) : Part := stocked (supply { trolley5 with state := .announced } { lot7 with state := ls })
    (∀ q, (onLink .logistics (m 7) q).Takes .l1 .logistics .lotWithdraw (m 7)) ∧
    (∀ q, (onLink .logistics (w 2) q).Takes .l1 .logistics .trainWithdraw (w 2)) ∧
    fieldAt (parse (m 0)).body 0 4 = 0 ∧ fieldAt (parse (m 7)).body 0 4 = 7 ∧ Part.reset.lot 7 = none ∧
    (p .announced).lot 7 = some { lot7 with state := .announced } ∧ (p .staged).lot 7 = some { lot7 with state := .staged } ∧
    (p .selling).lot 7 = some lot7 ∧ fieldAt (parse (w 2)).body 0 2 = 2 ∧ Part.reset.supply.trains.find 2 = none ∧
    (p .announced).supply.trains.find 2 = some train2 ∧ (p .announced).supply.lotsOf 2 = [7] ∧
    (filling 2).trains.find 2 = some { train2 with state := .filling, stated := 2, taken := 1, live := 0 } :=
  ⟨takes_onLink (by decide +kernel), takes_onLink (by decide +kernel), by decide +kernel⟩

/-- SLOT QUERY at the last clock and past it, of an empty slot and of a trolley; TROLLEY DEPARTED of a DEPARTING trolley. -/
theorem witness_SlotQueriedAndLeft :
    let m (place : Nat) : List Byte := raw 8 (toField 1 place)
    let d : List Byte := raw 7 (toField 2 5)
    let q := onLink .logistics (m 1) (stocked (supply { trolley5 with state := .departing } { lot7 with state := .soldOut }))
    (∀ p, (onLink .logistics (m 1) p).Takes .l1 .logistics .slotQuery (m 1)) ∧
    (∀ p, (onLink .logistics d p).Takes .l1 .logistics .trolleyDeparted d) ∧
    clockNumber .c1 = fieldAt (parse (m 1)).body 0 1 ∧ clockNumber .c4 = fieldAt (parse (m 4)).body 0 1 ∧
    4 < fieldAt (parse (m 5)).body 0 1 ∧ fieldAt (parse (m 0)).body 0 1 < 1 ∧ Part.reset.supply.slots.get .c1 = none ∧
    q.part.supply.slots.get .c1 = some 5 ∧ q.part.trolley 5 = some { trolley5 with state := .departing } ∧
    q.part.linkOf .logistics = some .l1 ∧ fieldAt (parse d).body 0 2 = 5 ∧ Part.reset.trolley 5 = none ∧
    q.part.supply.trains.find 2 = some train2 :=
  ⟨takes_onLink (by decide +kernel), takes_onLink (by decide +kernel), by decide +kernel⟩

/-- R22: SLOT QUERY taken before the done report of the trolley's last lot shows the trolley PRESENTED with one lot not done. -/
theorem test_slotQueryBeforeReport :
    let p : Part := { stocked (supply trolley5 { lot7 with state := .soldOut }) with
      channels := Part.reset.channels.upd .c1 (fun h => { h with clockToSupply := [7] }) }
    let s := onLink .logistics (raw 8 (toField 1 1)) p
    s.part.supply.slots.get .c1 = some 5 ∧ s.part.trolley 5 = some trolley5 ∧ 7 ∈ trolley5.lots ∧
    7 ∈ (s.part.channels.get .c1).clockToSupply ∧ s.part.notDone trolley5.lots = [] ∧
    (match exec (.slotQuery .l1) s with
      | .next t => (t.part.links.get .l1).urgent.map OutMsg.body
      | _ => []) = [.slotStatus .c1 5 (some .presented) 1 ((s.part.supply.queues.get .c1).length)] := by decide +kernel

/-- A lot done report in flight, and none; the trolley's last lot and another; a slot that is empty. -/
theorem witness_LotDoneReportTaken :
    let s := high { stocked (supply trolley5 { lot7 with state := .soldOut }) with
      channels := Part.reset.channels.upd .c1 (fun h => { h with clockToSupply := [7] }) }
    s.pinLow = false ∧ (s.part.channels.get .c1).clockToSupply = 7 :: [] ∧
    (State.reset.part.channels.get .c1).clockToSupply = [] ∧ s.part.trolley 5 = some trolley5 ∧
    s.part.supply.slots.get .c1 = some 5 ∧ s.part.notDone trolley5.lots = [] ∧ (sale .running).notDone trolley5.lots ≠ [] ∧
    Part.reset.supply.slots.get .c1 = none := by decide +kernel

/-! ### The hypotheses: the clock run -/

/-- Clock 1 in a state, with a report of the Supply Unit in flight. -/
def supplied (m : ToClockFromSupply) (p : Part) : State :=
  high { p with channels := p.channels.upd .c1 (fun h => { h with supplyToClock := [m] }) }

/-- Each report of the Supply Unit, to a clock in IDLE and in another state. -/
theorem witness_HeadLotReported :
    ((supplied .noPresentedHead (sale .idle)).part.channels.get .c1).supplyToClock = .noPresentedHead :: [] ∧
    ((supplied (.lotWithdrawn 7 10) (sale .idle)).part.channels.get .c1).supplyToClock = .lotWithdrawn 7 10 :: [] ∧
    ((supplied (.headLotPresented 7) (sale .idle)).part.channels.get .c1).supplyToClock = .headLotPresented 7 :: [] ∧
    ((sale .idle).clocks.get .c1).state = .idle ∧ ((sale .ready).clocks.get .c1).state ≠ .idle ∧
    (sale .idle).lot 7 = some lot7 := by decide +kernel

/-- CLOCK CONFIGURE with every parameter, in a state that takes it and one that does not. -/
theorem witness_ClockConfigured :
    let m : List Byte := raw 10 (toField 1 255 ++ (List.replicate 8 (toField 2 0)).flatten)
    (∀ p, (onLink (.console .c1) m p).Takes .l1 (.console .c1) .clockConfigure m) ∧
    (∀ st, ((onLink (.console .c1) m (sale st)).part.clocks.get .c1).state = st) := by
  refine ⟨takes_onLink (by decide +kernel), ?_⟩
  intro st
  cases st <;> rfl

/-- START at the highest price and past it, in every clock state; a lot with and without a ceiling; and the end of a restart delay. -/
theorem witness_RunStarts :
    let m (price : Nat) : List Byte := raw 11 (toField 4 price)
    (∀ p, (onLink (.console .c1) (m 0) p).Takes .l1 (.console .c1) .start (m 0)) ∧
    (∀ st, ((onLink (.console .c1) (m 0) (sale st)).part.clocks.get .c1).state = st ∧ (clockIn st).Ok ∧
      (sale st).lot 7 = some lot7 ∧ (sale st).supply.slots.get .c1 = some 5 ∧ (sale st).trolley 5 = some trolley5) ∧
    fieldAt (parse (m 9999999)).body 0 4 ≤ 9999999 ∧ 9999999 < fieldAt (parse (m 10000000)).body 0 4 ∧
    (clockIn .ready).run.hallView = .opened ∧ (clockIn .ready).run.lot = some 7 ∧ (clockIn .restart).run.lot = some 7 ∧
    ({ (clockIn .ready).run with hallView := .closing } : RunRecord).hallView ≠ .opened ∧
    StartPriceIs { lot7 with ceiling := none } none none 1200 ∧ StartPriceIs { lot7 with ceiling := none } none (some 249) 250 ∧
    StartPriceIs { lot7 with ceiling := none } none (some 250) 250 ∧ StartPriceIs lot7 (some 1187) none 1187 ∧
    StartPriceIs lot7 (some 1187) (some 1201) 1200 ∧ (clockIn .restart).restartTimer = some 1000 ∧
    (clockIn .restart).run.restartPrice = some 1187 ∧ lot7.ceiling.isSome = true := by
  refine ⟨takes_onLink (by decide +kernel), ?_, ?_⟩
  · intro st
    refine ⟨by cases st <;> rfl, (witness_clockOk st).2, by cases st <;> rfl, by cases st <;> rfl, by cases st <;> rfl⟩
  · simp [StartPriceIs, lot7, clockIn, ClockUnit.reset]
    decide +kernel

/-- Strides: to an ordinary position, to the floor, to the position limit, and to the end of the floor dwell. -/
theorem witness_StrideEnds :
    ((clockIn .running).Ok ∧ (clockIn .floor).Ok) ∧ (sale .running).lot 7 = some lot7 ∧
    (sale .running).supply.slots.get .c1 = some 5 ∧ (sale .running).trolley 5 = some trolley5 ∧
    (clockIn .running).strideTimer = some 25 ∧ (clockIn .floor).strideTimer = some 25 ∧
    (clockIn .running).run.position + 1 ≠ 65535 ∧ ({ run4 with position := 65534 } : RunRecord).position + 1 = 65535 ∧
    run4.priceOf 73 = 251 ∧ run4.priceOf 74 = 250 ∧
    (clockIn .floor).run.dwell + 1 < (clockIn .floor).config.floorDwell ∧
    (clockIn .floor).config.floorDwell ≤ ({ run4 with dwell := 39 } : RunRecord).dwell + 1 := by
  exact ⟨⟨(witness_clockOk .running).2, (witness_clockOk .floor).2⟩, by decide +kernel⟩

/-- Clock 1 in a state, with three orders: one that meets its conditions at 1,148, 1,187 and 250, between two that do not. -/
def threeOrders (st : ClockState) : ClockUnit :=
  { clockIn st with
    orders := [{ order1 with number := 2, buyer := 41, product := 78 }] ++
      order1 :: [{ order1 with number := 3, buyer := 42, limit := 100 }] }

/-- Orders of the product from numbers and buyers of their own, all of which meet their conditions. -/
def manyOrders (n : Nat) : List Order := (List.range n).map (fun i => { order1 with number := i + 1, buyer := 50 + i })

/-- An offered position in RUNNING, FLOOR and at the end of a restart delay: no order that fires, one between two that do not, blocked and
not, and nine that do; a stop window of 0 ms and another. -/
theorem witness_OrderFires :
    (∀ st, st = .running ∨ st = .floor ∨ st = .restart →
      (threeOrders st).Ok ∧ ({ clockIn st with orders := manyOrders 9 } : ClockUnit).Ok ∧
      ({ threeOrders st with config := { ClockConfig.reset with stopWindow := 0 } } : ClockUnit).Ok ∧
      (threeOrders st).state = st ∧ (threeOrders st).run.lot = some 7 ∧ (threeOrders st).run.hallView = .opened) ∧
    (saleOf (threeOrders .running)).lot 7 = some lot7 ∧ (saleOf (threeOrders .running)).supply.slots.get .c1 = some 5 ∧
    (threeOrders .running).strideTimer = some 25 ∧ (threeOrders .floor).strideTimer = some 25 ∧
    (threeOrders .restart).restartTimer = some 1000 ∧ (threeOrders .restart).run.restartPrice = some 1187 ∧
    lot7.ceiling.isSome = true ∧ (threeOrders .running).run.position + 1 ≠ 65535 ∧
    (threeOrders .floor).run.position + 1 ≠ 65535 ∧
    (threeOrders .floor).run.dwell + 1 < (threeOrders .floor).config.floorDwell ∧
    (threeOrders .running).config.stopWindow ≠ 0 ∧
    (∀ price ∈ [run4.priceOf 4, 1187, 250],
      (∀ x ∈ [{ order1 with number := 2, buyer := 41, product := 78 }] ++ [{ order1 with number := 3, buyer := 42, limit := 100 }],
        ¬ (x.product = lot7.product ∧ price ≤ x.limit) ∨ x.fired = true) ∧
      (order1.product = lot7.product ∧ price ≤ order1.limit ∧ order1.fired = false ∧ order1.blocked = false) ∧
      (∀ o ∈ manyOrders 9, (o.product = lot7.product ∧ price ≤ o.limit) ∧ o.fired = false ∧ o.blocked = false)) ∧
    ({ order1 with blocked := true } : Order).blocked = true ∧
    manyOrders 9 = (manyOrders 9).take 8 ++ (manyOrders 9).drop 8 ∧ ((manyOrders 9).take 8).length = 8 := by
  refine ⟨?_, by decide +kernel⟩
  intro st h
  refine ⟨?_, ?_, ?_, ?_, ?_, ?_⟩ <;> rcases h with rfl | rfl | rfl <;> first
    | rfl
    | exact clockOk_of (by decide +kernel)

/-- HOLD CLOCK and RESUME, in every clock state, held from each state, with and without a hold pending; held from RESTART in every hall
view. -/
theorem witness_HoldAndResume :
    (∀ p, (onLink (.console .c1) (raw 12 []) p).Takes .l1 (.console .c1) .holdClock (raw 12 [])) ∧
    (∀ p, (onLink (.console .c1) (raw 13 []) p).Takes .l1 (.console .c1) .resume (raw 13 [])) ∧
    (∀ st, ((onLink (.console .c1) (raw 12 []) (sale st)).part.clocks.get .c1).state = st) ∧
    (∀ back : HeldFrom, ∃ st, (clockIn st).state = back.state) ∧ (clockIn .window).run.pendingHold = false ∧
    (∀ back view, let k : ClockUnit := { clockIn .held with run := { run4 with
        heldFrom := some back, holdCause := some .console, hallView := view } }
      k.state = .held ∧ k.run.heldFrom = some back ∧ k.run.hallView = view ∧ k.Ok) := by
  refine ⟨takes_onLink (by decide +kernel), takes_onLink (by decide +kernel), ?_, ?_, rfl, ?_⟩
  · intro st
    cases st <;> rfl
  · intro b
    cases b
    · exact ⟨.running, rfl⟩
    · exact ⟨.floor, rfl⟩
    · exact ⟨.restart, rfl⟩
  · intro back view
    refine ⟨rfl, rfl, rfl, ?_⟩
    cases back <;> cases view <;>
      exact clockOk_of (by decide +kernel)

/-- WITHDRAW LOT of the head lot, of no lot and of another, in every clock state. -/
theorem witness_LotWithdrawnByConsole :
    let m (id : Nat) : List Byte := raw 14 (toField 4 id)
    (∀ p, (onLink (.console .c1) (m 7) p).Takes .l1 (.console .c1) .withdrawLot (m 7)) ∧
    fieldAt (parse (m 7)).body 0 4 = 7 ∧ fieldAt (parse (m 0)).body 0 4 = 0 ∧ (clockIn .window).run.lot ≠ some 8 ∧
    (∀ st, st ≠ .idle → (clockIn st).run.lot = some 7 ∧ (sale st).lot 7 = some lot7 ∧ (clockIn st).Ok) := by
  refine ⟨takes_onLink (by decide +kernel), by decide, by decide, by decide, ?_⟩
  intro st h
  refine ⟨?_, ?_, (witness_clockOk st).2⟩ <;> cases st <;> first | exact absurd rfl h | rfl

/-- Each hall notice, to a clock in RESTART and in another state. -/
theorem witness_HallNoticesTaken :
    (∀ h, ((handed (.hall h) (sale .restart)).part.channels.get .c1).accountToClock = .hall h :: []) ∧
    ((sale .restart).clocks.get .c1).state = .restart ∧ ((sale .running).clocks.get .c1).state ≠ .restart := by
  refine ⟨?_, rfl, by decide⟩
  intro h
  cases h <;> rfl

/-! ### The hypotheses: bids and orders -/

/-- A BID of run 4, pressed at 3, of two units. -/
def bidRaw (desk quantity : Nat) : List Byte := raw 16 (toField 2 desk ++ toField 2 4 ++ toField 2 3 ++ toField 2 quantity)

/-- The same with LIMIT and a product. -/
def placementRaw (desk : Nat) : List Byte :=
  toField 1 16 ++ toField 1 1 ++ toField 1 4 ++ toField 4 700 ++ toField 2 desk ++ toField 2 4 ++ toField 2 3 ++ toField 2 2 ++
  toField 4 77

/-- BID and placement: formed and not, in a hall that is open and one that is not, from desks mapped and bound or not. -/
theorem witness_BidIntake :
    (∀ p, (onLink .deskGroup (bidRaw 3 2) p).Takes .l1 .deskGroup .bid (bidRaw 3 2)) ∧
    (∀ p, (onLink .deskGroup (placementRaw 3) p).Takes .l1 .deskGroup .bid (placementRaw 3)) ∧
    ((readBid (parse (bidRaw 3 2)).body).desk ≤ 1023 ∧ (readBid (parse (bidRaw 3 2)).body).run ≠ 0 ∧
      ¬ (readBid (parse (bidRaw 1024 2)).body).desk ≤ 1023 ∧ ¬ (readBid (parse (bidRaw 3 10000)).body).quantity ≤ 9999) ∧
    (parse (bidRaw 3 2)).limit = none ∧ (parse (placementRaw 3)).limit = some 700 ∧ (parse (bidRaw 3 2)).clock = none ∧
    (hall true).account.groups.get .l1 = some group ∧ group.defaultClock = .c1 ∧
    (hall true).account.hall.state = .opened ∧ Part.reset.account.hall.state ≠ .opened ∧
    localToHall group.map 3 = some 103 ∧ localToHall group.map 10 = none ∧
    (hall false).account.desks.find 103 = none ∧ (hall true).account.desks.find 103 = some ⟨40, 0⟩ ∧
    (hall true).buyer 40 = some (buyer40 (some 103)) ∧ (buyer40 none).blocked = false ∧
    ({ buyer40 none with blocked := true } : Buyer).blocked = true ∧ (buyer40 none).members.get .c1 = true ∧
    ({ buyer40 none with members := PerClock.const false } : Buyer).members.get .c1 = false :=
  ⟨takes_onLink (by decide +kernel), takes_onLink (by decide +kernel), by decide +kernel⟩

/-- An admitted bid of buyer 40. -/
def bid40 (run pressed : Nat) : BidHandover :=
  { buyer := 40, point := 4, target := ⟨.l1, 3⟩, run := run, pressed := pressed, asked := 2, tag := none }

/-- A bid at a clock in every state, of its run and another; the slot's trolley has room. -/
theorem witness_BidJudgedByClock :
    (∀ b p, ((handed (.bid b) p).part.channels.get .c1).accountToClock = .bid b :: []) ∧
    (∀ st, (handed (.bid (bid40 4 3)) (sale st)).part.clocks.get .c1 = clockIn st ∧ (clockIn st).run.run = 4) ∧
    (bid40 5 3).run ≠ (clockIn .running).run.run ∧ (clockIn .running).run.lot = some 7 ∧ (sale .running).lot 7 = some lot7 ∧
    (sale .running).supply.slots.get .c1 = some 5 ∧ (sale .running).trolley 5 = some trolley5 ∧
    trolley5.picks.length < 24 ∧ (clockIn .running).config.stopWindow ≠ 0 ∧
    ({ ClockConfig.reset with stopWindow := 0 } : ClockConfig).stopWindow = 0 := by
  refine ⟨fun _ _ => rfl, ?_, by decide +kernel⟩
  intro st
  cases st <;> exact ⟨rfl, rfl⟩

/-- The candidates of a full list, at positions 1 to 8. -/
def eight : List Candidate := (List.range 8).map (fun i => candidate (20 + i) (i + 1) (i + 1))

/-- A bid in WINDOW: of a new buyer with a list that has room and one that is full, and of a buyer in the list. -/
theorem witness_CandidateEntered :
    let k := { clockIn .window with candidates := eight, arrivals := 8, run := { run4 with position := 9 } }
    k.Ok ∧ (saleOf k).lot 7 = some lot7 ∧ k.candidates.length = 8 ∧ k.candidates.getLast? = some (candidate 27 8 8) ∧
    (∀ y ∈ k.candidates, y.buyer ≠ 40) ∧ clampPosition 9 4 7 < 8 ∧ 8 ≤ clampPosition 9 4 8 ∧
    (clockIn .window).candidates.length < 8 ∧
    (clockIn .window).candidates.find? (fun y => decide (y.buyer = 12)) = some (candidate 12 3 1) ∧
    clampPosition 3 4 2 < 3 ∧ 3 ≤ clampPosition 3 4 3 := by
  refine ⟨?_, by decide +kernel⟩
  exact clockOk_of (by decide +kernel)

/-- A pick list without room for another buyer. -/
def fullPicks : List Pick := (List.range 24).map (fun i => ⟨100 + i, 4, 1⟩)

/-- The end of a window: candidates with room and without, a hold pending and none, above the floor and at it. -/
theorem witness_WindowDecides :
    (clockIn .window).windowTimer = some 40 ∧ (sale .window).lot 7 = some lot7 ∧ (sale .window).supply.slots.get .c1 = some 5 ∧
    (sale .window).trolley 5 = some trolley5 ∧ (clockIn .window).candidates = [] ++ candidate 12 3 1 :: [] ∧
    (candidate 12 3 1).HasRoom trolley5.picks ∧ (candidate 100 3 1).HasRoom fullPicks ∧
    ¬ (candidate 12 3 1).HasRoom fullPicks ∧ (clockIn .window).run.pendingHold = false ∧
    ({ run4 with pendingHold := true } : RunRecord).pendingHold = true ∧ run4.minPrice ≠ some run4.price ∧
    ({ run4 with price := 250 } : RunRecord).minPrice = some 250 := by
  unfold Candidate.HasRoom
  decide +kernel

/-- REFUSE and GRANT in flight to a clock in AWARDING, with each pending; a next candidate with pick room and without; an order's candidate
and its order. -/
theorem witness_AnswersTaken :
    let s := handed (.refuse .credit) (sale .awarding)
    let g := handed (.grant 9) (sale .awarding)
    (s.part.channels.get .c1).accountToClock = .refuse .credit :: [] ∧ (g.part.channels.get .c1).accountToClock = .grant 9 :: [] ∧
    (s.part.clocks.get .c1).state = .awarding ∧ (clockIn .awarding).Ok ∧
    ({ clockIn .awarding with run := { run4 with pendingWithdrawal := true, pendingHold := true, holdCause := some .console } } :
      ClockUnit).Ok ∧
    (clockIn .awarding).candidates.drop 0 = candidate 12 3 1 :: [candidate 13 3 2] ∧
    (clockIn .awarding).inFlight = some 1161 ∧ (clockIn .awarding).run.lot = some 7 ∧ s.part.lot 7 = some lot7 ∧
    s.part.supply.slots.get .c1 = some 5 ∧ s.part.trolley 5 = some trolley5 ∧
    (candidate 13 3 2).HasRoom trolley5.picks ∧ ¬ (candidate 13 3 2).HasRoom fullPicks ∧
    lot7.remaining - (candidate 12 3 1).quantity ≠ 0 ∧
    lot7.remaining - ({ candidate 12 3 1 with quantity := 10 } : Candidate).quantity = 0 ∧
    (clockIn .awarding).run.pendingWithdrawal = false ∧ (clockIn .awarding).run.pendingHold = false ∧
    run4.hallView = .opened ∧ ({ run4 with hallView := .closing } : RunRecord).hallView ≠ .opened ∧
    ({ candidate 12 3 1 with origin := .order 1 } : Candidate).origin = .order order1.number ∧
    1 < order1.count ∧ ({ order1 with count := 1 } : Order).count ≤ 1 ∧
    trolley5.picks.any (fun p => decide (p.buyer = 12) && decide (p.point = 4)) = false ∧
    trolley5.picks.any (fun p => decide (p.buyer = 31) && decide (p.point = 4)) = true := by
  refine ⟨rfl, rfl, rfl, (witness_clockOk .awarding).2, ?_, rfl, by decide +kernel⟩
  exact clockOk_of (by decide +kernel)

/-- An award that leaves units in a closing hall: READY at position 0 (R25, R35), and the price of the decided run at position 3 if the part
keeps it (R71), 0 if it does not (R25, R68). -/
theorem test_grantToReady :
    let closing : ClockUnit := { clockIn .awarding with run := { run4 with hallView := .closing } }
    (result (exec (.grant .c1) (handed (.grant 9) (saleOf closing)))).map (fun u =>
      ((u.part.clocks.get .c1).state, (u.part.clocks.get .c1).run.position, (u.part.clocks.get .c1).run.price)) =
    some (.ready, 0, if Config.readyKeepsPrice then 1161 else 0) := rfl

/-- R147: SNAPSHOT of a clock whose view is READY shows the price 0, and of one that is HELD the view's price. -/
theorem test_snapshotPrice :
    ({ View.reset with state := .ready, price := 1161 } : View).snapshotPrice = 0 ∧
    ({ View.reset with state := .held, price := 1161 } : View).snapshotPrice = 1161 := by decide

/-- Outcomes: for a buyer bound and not bound, an answer, and ORDER ENDED. -/
theorem witness_OutcomesDelivered :
    let o : OutcomeBody := .refused ⟨some .c1, some 4, .outbid, some .pressed, none⟩
    ((handedBack (.outcome 40 none o) (hall true)).part.channels.get .c1).clockToAccount = .outcome 40 none o :: [] ∧
    ((handedBack (.reply ⟨.l1, 3⟩ none .noOrder) (hall true)).part.channels.get .c1).clockToAccount =
      .reply ⟨.l1, 3⟩ none .noOrder :: [] ∧
    (∀ b, ((handedBack (.orderEnded .l1 none b) (hall true)).part.channels.get .c1).clockToAccount = .orderEnded .l1 none b :: []) ∧
    (hall true).buyer 41 = none ∧ (hall false).buyer 40 = some (buyer40 none) ∧ (hall true).buyer 40 = some (buyer40 (some 103)) ∧
    (hall true).account.groups.get .l1 = some group ∧ hallToLocal group.map 103 = some 3 ∧
    (∀ l g, (hall true).account.groups.get l = some g → l ≠ .l1 → hallToLocal g.map 103 = none) := by
  refine ⟨rfl, rfl, fun _ => rfl, by decide +kernel, by decide +kernel, by decide +kernel, rfl, by decide, ?_⟩
  intro l g h hl
  cases l <;> first | exact absurd rfl hl | (simp [hall, account, Account.reset, PerLink.get, PerLink.upd, PerLink.const] at h)

/-- A placement at a table with room, with the buyer's own order, and full of others'. -/
theorem witness_OrderPlaced :
    let h : PlacementHandover := ⟨40, 4, ⟨.l1, 3⟩, 77, 700, 2, 1, false, none⟩
    let full := (List.range 16).map (fun i => { order1 with number := i + 1, buyer := 50 + i })
    ((handed (.placement h) (sale .idle)).part.channels.get .c1).accountToClock = .placement h :: [] ∧
    (∀ o ∈ (clockIn .idle).orders, o.buyer ≠ h.buyer) ∧ (clockIn .idle).orders.length < 16 ∧
    (∀ o ∈ full, o.buyer ≠ h.buyer) ∧ 16 ≤ full.length ∧
    [order1].find? (fun x => decide (x.buyer = h.buyer)) = some order1 ∧
    ({ clockIn .idle with orders := full } : ClockUnit).Ok := by
  refine ⟨rfl, by decide, by decide, by decide, by decide, by decide, ?_⟩
  exact clockOk_of (by decide +kernel)

/-- A cancel, a notice and an end request, to a clock with an order of the buyer and without. -/
theorem witness_OrdersEndAndChange :
    (∀ m p, ((handed m p).part.channels.get .c1).accountToClock = m :: []) ∧
    [order1].find? (fun x => decide (x.buyer = 40)) = some order1 ∧ (∀ o ∈ (clockIn .idle).orders, o.buyer ≠ 40) ∧
    (PerClock.const true).get .c1 = true ∧ (PerClock.const false).get .c1 = false :=
  ⟨fun _ _ => rfl, by decide, by decide, by decide, by decide⟩

/-! ### The hypotheses: desks, accounts and invoices -/

/-- A desk and its buyer agree in the part with buyer 40 at desk 103, and in the part without. -/
theorem bindingsOk_hall (bound : Bool) : (hall bound).BindingsOk := by
  cases bound
  · refine ⟨?_, ?_⟩
    · intro i b h
      simp [hall, account, Table.find] at h
    · intro u r i h hd
      by_cases hu : 40 = u
      · subst hu
        simp [hall, account, Part.buyer, Table.find] at h
        subst h
        simp [buyer40] at hd
      · simp [hall, account, Part.buyer, Table.find, hu] at h
  · exact witness_TablesAndBindingsKept.2.1

/-- LOGIN at desks mapped and not, of buyers known and not, repeated, and as a move. -/
theorem witness_LoginTaken :
    let m (desk buyer : Nat) : List Byte := raw 18 (toField 2 desk ++ toField 3 buyer)
    (∀ p, (onLink .deskGroup (m 3 40) p).Takes .l1 .deskGroup .login (m 3 40)) ∧
    (∀ b, (onLink .deskGroup (m 3 40) (hall b)).part.TablesOk ∧ (onLink .deskGroup (m 3 40) (hall b)).part.BindingsOk) ∧
    (hall true).account.groups.get .l1 = some group ∧
    fieldAt (parse (m 1023 40)).body 0 2 ≤ 1023 ∧ ¬ fieldAt (parse (m 1024 40)).body 0 2 ≤ 1023 ∧
    ¬ 1 ≤ fieldAt (parse (m 3 0)).body 2 3 ∧ fieldAt (parse (m 3 999999)).body 2 3 ≤ 999999 ∧
    (hall true).account.hall.state = .opened ∧ Part.reset.account.hall.state ≠ .opened ∧ localToHall group.map 10 = none ∧
    localToHall group.map 3 = some 103 ∧ (hall true).buyer 41 = none ∧ (buyer40 (some 103)).desk = some 103 ∧
    (buyer40 (some 103)).desk ≠ some 104 ∧ (buyer40 none).desk ≠ some 103 ∧ (buyer40 (some 103)).orderMark = true :=
  ⟨takes_onLink (by decide +kernel), fun b => ⟨tablesOk_of (by cases b <;> decide +kernel), bindingsOk_hall b⟩, by decide +kernel⟩

/-- LOGOUT, PRESENT and CANCEL ORDER of desks mapped and bound or not, and the age expiry of a desk. -/
theorem witness_BoundDesksServed :
    (∀ p, (onLink .deskGroup (raw 19 [0#8, 3#8]) p).Takes .l1 .deskGroup .logout (raw 19 [0#8, 3#8])) ∧
    (∀ p, (onLink .deskGroup (raw 20 [0#8, 3#8]) p).Takes .l1 .deskGroup .present (raw 20 [0#8, 3#8])) ∧
    (∀ p, (onLink .deskGroup (raw 17 [0#8, 3#8]) p).Takes .l1 .deskGroup .cancelOrder (raw 17 [0#8, 3#8])) ∧
    1023 < fieldAt (parse (raw 20 [4#8, 0#8])).body 0 2 ∧ fieldAt (parse (raw 20 [3#8, 255#8])).body 0 2 ≤ 1023 ∧
    localToHall group.map 10 = none ∧ localToHall group.map 3 = some 103 ∧ (hall false).account.desks.find 103 = none ∧
    (hall true).account.desks.find 103 = some ⟨40, 0⟩ ∧ (hall true).deskTarget 103 = some ⟨.l1, 3⟩ ∧ group.aging = true ∧
    ({ group with aging := false } : DeskGroup).aging = false ∧
    ((onLink .deskGroup [] (hall true)).part.links.get .l1).state = .up ∧ (parse (raw 17 [0#8, 3#8])).clock = none :=
  ⟨takes_onLink (by decide +kernel), takes_onLink (by decide +kernel), takes_onLink (by decide +kernel), by decide +kernel⟩

/-- BUYER SET, BUYER REMOVE, BLOCK and UNBLOCK: of buyers known and not, with an order mark, bound, and with lines. -/
theorem witness_BuyerRecords :
    let m (id point : Nat) : List Byte := raw 24 (toField 3 id ++ toField 6 1000000000001 ++ toField 1 15 ++ toField 2 point)
    (∀ p, (onLink .settlement (m 40 4) p).Takes .l1 .settlement .buyerSet (m 40 4)) ∧
    (∀ p, (onLink .settlement (raw 25 [0#8, 0#8, 40#8]) p).Takes .l1 .settlement .buyerRemove (raw 25 [0#8, 0#8, 40#8])) ∧
    (∀ p, (onLink .settlement (raw 27 [0#8, 0#8, 40#8]) p).Takes .l1 .settlement .block (raw 27 [0#8, 0#8, 40#8])) ∧
    (∀ p, (onLink .settlement (raw 28 [0#8, 0#8, 40#8]) p).Takes .l1 .settlement .unblock (raw 28 [0#8, 0#8, 40#8])) ∧
    (1 ≤ fieldAt (parse (m 40 4)).body 0 3 ∧ fieldAt (parse (m 999999 4095)).body 0 3 ≤ 999999 ∧
      fieldAt (parse (m 999999 4095)).body 10 2 ≤ 4095 ∧ ¬ fieldAt (parse (m 40 4096)).body 10 2 ≤ 4095) ∧
    Part.reset.buyer 40 = none ∧ Part.reset.account.buyers.length < 1024 ∧
    (hall true).buyer 40 = some (buyer40 (some 103)) ∧ (buyer40 none).lines = 0 ∧ (buyer40 none).desk = none ∧
    0 < ({ buyer40 none with lines := 1 } : Buyer).lines ∧ (hall true).deskTarget 103 = some ⟨.l1, 3⟩ ∧
    1024 ≤ (List.replicate 1024 (40, buyer40 none)).length :=
  ⟨takes_onLink (by decide +kernel), takes_onLink (by decide +kernel), takes_onLink (by decide +kernel),
   takes_onLink (by decide +kernel), by decide +kernel⟩

/-- CREDIT LIMIT of a buyer known and not, below its exposure; TARIFF LOAD. -/
theorem witness_CreditLimitAndTariff :
    let m : List Byte := raw 26 (toField 3 40 ++ toField 6 499)
    let l : List Byte := raw 29 (List.replicate 96 (1#8))
    (∀ p, (onLink .settlement m p).Takes .l1 .settlement .creditLimit m) ∧
    (∀ p, (onLink .settlement l p).Takes .l1 .settlement .tariffLoad l) ∧
    fieldAt (parse m).body 0 3 = 40 ∧ (hall true).buyer 40 = some (buyer40 (some 103)) ∧ Part.reset.buyer 40 = none ∧
    fieldAt (parse m).body 3 6 < ({ buyer40 none with exposure := 500 } : Buyer).exposure ∧ (buyer40 none).blocked = false :=
  ⟨takes_onLink (by decide +kernel), takes_onLink (by decide +kernel), by decide +kernel⟩

/-- CLOSE INVOICE and SETTLED: with no buyer, no open invoice, an open one, and an invoice AWAITING and not. -/
theorem witness_InvoicesClosedAndSettled :
    let m : List Byte := raw 30 (toField 3 40)
    let n : List Byte := raw 31 (toField 2 3 ++ toField 3 40 ++ toField 2 1)
    let s := onLink .settlement m (invoiced .opened (some ⟨3, 40, 1⟩))
    (∀ p, (onLink .settlement m p).Takes .l1 .settlement .closeInvoice m) ∧
    (∀ p, (onLink .settlement n p).Takes .l1 .settlement .settled n) ∧
    fieldAt (parse m).body 0 3 = 40 ∧ Part.reset.buyer 40 = none ∧
    (hall true).buyer 40 = some (buyer40 (some 103)) ∧ (buyer40 (some 103)).openInvoice = none ∧
    s.part.account.invoice ⟨3, 40, 1⟩ = some (invoice1 .opened) ∧ s.part.account.cursor = none ∧
    (s.part.links.get .l1).peerWait = false ∧ (invoiced .sending none).account.cursor.isSome = true ∧ s.part.linkOf .settlement = some .l1 ∧
    ({ link .settlement [] with peerWait := true } : Link).peerWait = true ∧ readInvoiceNumber (parse n).body = ⟨3, 40, 1⟩ ∧
    (invoiced .awaiting none).account.invoice ⟨3, 40, 1⟩ = some (invoice1 .awaiting) ∧
    (invoice1 .sending).state ≠ .awaiting ∧ s.part.account.InvoicesOk := by
  refine ⟨takes_onLink (by decide +kernel), takes_onLink (by decide +kernel), ?_⟩
  simp only [← and_assoc]
  exact ⟨by decide +kernel, invoicesOk_invoiced.2.1⟩

/-- A GO on the SETTLEMENT link with one CLOSED invoice in the queue; room for all its messages and for one. -/
theorem witness_InvoicesSent :
    let s := onLink .settlement [] (invoiced .closed none)
    s.part.linkOf .settlement = some .l1 ∧ (s.part.links.get .l1).bulk.length ≤ 32 ∧ s.part.account.cursor = none ∧
    s.part.account.settleQueue = [] ++ ⟨3, 40, 1⟩ :: [] ∧ s.part.account.invoice ⟨3, 40, 1⟩ = some (invoice1 .closed) ∧
    (∀ i ∈ (invoice1 .closed).lines, (s.part.account.lines.find i).isSome = true) ∧ (invoice1 .closed).lines.length + 1 ≤ 32 - 30 ∧
    32 - 31 < (invoice1 .closed).lines.length + 1 ∧ s.part.account.InvoicesOk := by
  simp only [← and_assoc]
  exact ⟨by decide +kernel, invoicesOk_invoiced.1 .closed (by decide)⟩

/-- A reservation of buyer 40 for two units of lot 7. -/
def reserve : Reservation :=
  { buyer := 40, lot := 7, product := 77, grower := 9, cls := 3, stems := 20, price := 1161, quantity := 2, run := 4 }

/-- The account with an open invoice of 47 lines. -/
def almostFull : Part :=
  { hall true with
    account := { account true with
      buyers := [(40, { buyer40 (some 103) with exposure := 23500, lines := 47, openInvoice := some ⟨3, 40, 1⟩, sequence := 2 })],
      lines := (List.range 47).map (fun i => (i + 1, { line1 with number := i + 1 })),
      invoices := [{ invoice1 .opened with lines := (List.range 47).map (fun i => i + 1), total := 23500 }],
      openList := [⟨3, 40, 1⟩] } }

/-- A reservation: of no buyer, a blocked one, over the limit and at it, with an open invoice of 1 and of 47 lines and without; a store
with 65 places left, and one that is full. -/
theorem witness_ReservationJudged :
    let s := handedBack (.reservation reserve) (hall true)
    (∀ p, ((handedBack (.reservation reserve) p).part.channels.get .c1).clockToAccount = .reservation reserve :: []) ∧
    s.part.TablesOk ∧ s.part.account.InvoicesOk ∧ almostFull.TablesOk ∧ almostFull.account.InvoicesOk ∧
    Part.reset.buyer 40 = none ∧ s.part.buyer 40 = some (buyer40 (some 103)) ∧ (buyer40 none).blocked = false ∧
    (buyer40 none).exposure + (s.part.account.figures reserve).total ≤ (buyer40 none).limit ∧
    (s.part.account.figures reserve).total = 4644 + 232 + 20 + 20 ∧
    ({ buyer40 none with limit := 4915 } : Buyer).limit < (buyer40 none).exposure + 4916 ∧ s.part.account.lines.length < 4096 ∧
    s.part.account.invoices.length < 256 ∧ s.part.account.invoice ⟨3, 40, 1⟩ = none ∧
    (invoiced .opened (some ⟨3, 40, 1⟩)).account.invoice ⟨3, 40, 1⟩ = some (invoice1 .opened) ∧
    (almostFull.account.invoice ⟨3, 40, 1⟩).map (fun v => v.lines.length) = some 47 := by
  refine ⟨fun _ => rfl, tablesOk_of (by decide +kernel), invoicesOk_invoiced.2.2 true, tablesOk_of (by decide +kernel),
          invoicesOk_of (by decide +kernel), by decide +kernel⟩

/-- The 48th line closes the invoice, which waits in the settlement queue while no SETTLEMENT link is UP. -/
theorem test_linesFull :
    (result (exec (.reservation .c1) (handedBack (.reservation reserve) almostFull))).map
      (fun u => (u.part.account.openList, u.part.account.settleQueue, u.part.account.lines.length)) =
      some ([], [⟨3, 40, 1⟩], 48) := by decide +kernel

/-! ### The hypotheses: the hall day, the display and the mirror -/

/-- OPEN DAY and CLOSE DAY, in every hall state, with a tariff and without. -/
theorem witness_DayOpensAndCloses :
    (∀ p, (onLink .supervision (raw 34 [0#8, 3#8]) p).Takes .l1 .supervision .openDay (raw 34 [0#8, 3#8])) ∧
    (∀ p, (onLink .supervision (raw 35 []) p).Takes .l1 .supervision .closeDay (raw 35 [])) ∧
    fieldAt (parse (raw 34 [0#8, 0#8])).body 0 2 = 0 ∧ fieldAt (parse (raw 34 [0#8, 3#8])).body 0 2 ≠ 0 ∧
    Part.reset.account.hall.state = .closed ∧ (hall true).account.hall.state = .opened ∧ Part.reset.account.generation = 0 ∧
    (account true).generation ≠ 0 ∧ ({ Part.reset with links := Part.reset.links.upd .l2 (fun _ => link .settlement []) } :
      Part).linkOf .settlement = some .l2 :=
  ⟨takes_onLink (by decide +kernel), takes_onLink (by decide +kernel), by decide +kernel⟩

/-- A CLOSING hall in which every clock but clock 1 has answered and is quiet. -/
def closingHall : Part :=
  { hall true with
    account := { account true with
      hall := { (account true).hall with state := .closing, answered := ⟨false, true, true, true⟩ } } }

/-- An activity report that brings a closing hall to rest, and ones that do not. -/
theorem witness_ActivityReported :
    ((handedBack (.activity false (some .closing)) closingHall).part.channels.get .c1).clockToAccount =
      .activity false (some .closing) :: [] ∧
    (handedBack (.activity false (some .closing)) closingHall).part.TablesOk ∧
    (handedBack (.activity false (some .closing)) closingHall).part.BindingsOk ∧
    (handedBack (.activity false (some .closing)) closingHall).part.account.InvoicesOk ∧ closingHall.account.hall.state = .closing ∧
    (∀ d, ((closingHall.account.hall.answered.upd .c1 (fun _ => true)).get d) = true ∧ (closingHall.account.hall.active.get d) = false) ∧
    (hall true).account.hall.state ≠ .closing ∧ closingHall.account.openList = [] := by
  refine ⟨rfl, tablesOk_of (by decide +kernel), bindingsOk_hall true, invoicesOk_of (by decide +kernel), rfl, ?_, by decide, rfl⟩
  intro d
  cases d <;> decide

/-- A clock report with a lot in a state. -/
def report4 (st : ClockState) : ClockReport := ⟨st, 4, 3, 1161, none, some ⟨7, 77, 9, 3, 10, 20, 2, 250⟩⟩

/-- Each event of a Clock Unit in flight, that changes a compared field and that changes none; the Supply Unit's events. -/
theorem witness_DisplayEvents :
    (∀ e (p : Part), ((high { p with channels := p.channels.upd .c1 (fun h => { h with clockToDisplay := [e] }) }).part.channels.get
      .c1).clockToDisplay = e :: []) ∧
    (∀ e (p : Part), ((high { p with channels := p.channels.upd .c1 (fun h => { h with supplyToDisplay := [e] }) }).part.channels.get
      .c1).supplyToDisplay = e :: []) ∧
    (hall true).DisplayOk ∧ (report4 .running).state ≠ (Part.reset.displayClock .c1).frame.state ∧
    (Part.reset.displayClock .c1).view.run < (report4 .running).run ∧ (Part.reset.displayClock .c1).tier ≠ .fast ∧
    (Part.reset.displayClock .c1).strideCount + 1 < (Part.reset.displayClock .c1).divisor ∧
    (Part.reset.displayClock .c1).divisor ≤ 1 + 1 ∧ (⟨8, true⟩ : SupplyEvent).withdrawal = true ∧
    (⟨8, false⟩ : SupplyEvent).withdrawal = false := by
  refine ⟨fun _ _ => rfl, fun _ _ => rfl, ⟨?_, ?_⟩, by decide +kernel⟩
  · intro c
    cases c <;> (unfold DisplayClock.Ok; decide +kernel)
  · intro l c
    cases l <;> cases c <;> (unfold Accumulator.Ok; decide +kernel)

/-- A frame timer that runs, and a DISPLAY link with and without an older frame of the clock. -/
theorem witness_FrameTimerEnds :
    (State.reset.part.displayClock .c1).frameTimer = some 250 ∧
    (let p : Part := { Part.reset with
       links := Part.reset.links.upd .l1 (fun _ => link .display []),
       display := { Part.reset.display with
         clockSets := Part.reset.display.clockSets.upd .l1 (fun _ => some (PerClock.const true)) } }
     p.serves .l1 .display = true ∧ p.display.clockSets.get .l1 = some (PerClock.const true)) ∧
    (⟨none, .clockFrame (Frame.reset .c1)⟩ : OutMsg).isFrameOf .c1 = true := by decide +kernel

/-- The tier found at the end of a frame timer, at the bounds between the tiers. -/
theorem test_tiers :
    let s (t : Nat) : State := high { Part.reset with display := { Part.reset.display with
      clocks := Part.reset.display.clocks.upd .c1 (fun d => { d with frameTimer := some t }) } }
    let tier (t : Nat) := (result (exec (.frameTimerExpiry .c1) (s t))).map (fun u =>
      ((u.part.displayClock .c1).tier, (u.part.displayClock .c1).frameTimer))
    tier 9999 = some (.steady, some 10249) ∧ tier 10000 = some (.slow, some 11000) ∧ tier 59999 = some (.slow, some 60999) ∧
    tier 60000 = some (.dormant, some 65000) := by decide +kernel

/-- SNAPSHOT REQUEST on a DESK GROUP link, and reports of each source, with a mirror of their clock and without. -/
theorem witness_SnapshotsAndCopies :
    let r : BidReport := ⟨.c1, 40, none, 4, some .pressed, 3, 2, none, none⟩
    (∀ p, (onLink .deskGroup (raw 21 []) p).Takes .l1 .deskGroup .snapshotRequest (raw 21 [])) ∧
    (hall true).account.groups.get .l1 = some group ∧
    (hall true).display.sets.get .l1 = some (PerClock.const Accumulator.zero) ∧ (parse (raw 21 [])).clock = none ∧
    group.defaultClock = .c1 ∧ ({ Part.reset with accountReports := [.bid r] } : Part).accountReports = .bid r :: [] ∧
    Part.reset.display.mirror = none ∧ (PerClock.const true).get .c1 = true ∧ (PerClock.const false).get .c1 = false ∧
    ({ Part.reset with links := Part.reset.links.upd .l1 (fun _ => link .supervision []) } : Part).linkOf .supervision = some .l1 :=
  ⟨takes_onLink (by decide +kernel), by decide +kernel⟩

end Sys2Proof.Tests
end

section
/-! What a command does to the part, as one function of the part, and the parts of the state that a command leaves alone. -/

namespace Sys2Proof.Machine

/-! ### The effect of a command -/

/-- What a command does to the part while the reset pin is high. -/
def effect : Instr → Part → Part
  | .reset | .resetPinHeldLow => fun _ => Part.reset
  | .lineActivity l => lineActive l
  | .frameReceived l bytes => receive l bytes
  | .keepMarker l => fun p => if p.receives l then keepFrom l p else p
  | .waitMarker l => fun p => if p.receives l then waitFrom l p else p
  | .goMarker l => fun p => if p.receives l then goFrom l p else p
  | .lossTimerExpiry l => lossStep l
  | .keepTimerExpiry l => keepStep l
  | .frameSent l => transmit l
  | .unknownKind l => unknownStep l
  | .announce l => takeMessage l .announce (takeAnnounce l)
  | .trainHeader l => takeMessage l .trainHeader (ifWellFormed l .trainHeader (takeTrainHeader l))
  | .trolleyEntry l => takeMessage l .trolleyEntry (ifWellFormed l .trolleyEntry (takeTrolleyEntry l))
  | .trolleyArrived l => takeMessage l .trolleyArrived (ifWellFormed l .trolleyArrived (takeTrolleyArrived l))
  | .lotWithdraw l => takeMessage l .lotWithdraw (ifWellFormed l .lotWithdraw (takeLotWithdraw l))
  | .trainWithdraw l => takeMessage l .trainWithdraw (ifWellFormed l .trainWithdraw (takeTrainWithdraw l))
  | .trolleyDeparted l => takeMessage l .trolleyDeparted (ifWellFormed l .trolleyDeparted (takeTrolleyDeparted l))
  | .slotQuery l => takeMessage l .slotQuery (ifWellFormed l .slotQuery (takeSlotQuery l))
  | .lotDoneReport c => lotDoneStep c
  | .headLotPresented c => takeFromSupply c (fun | .headLotPresented lot => some (takeHeadLot c lot) | _ => none)
  | .noPresentedHead c => takeFromSupply c (fun | .noPresentedHead => some id | _ => none)
  | .lotWithdrawn c => takeFromSupply c (fun | .lotWithdrawn lot n => some (takeLotWithdrawn c lot n) | _ => none)
  | .clockConfigure l =>
    takeMessage l .clockConfigure (ifWellFormed l .clockConfigure (fun m => onConsole l (takeConfigure l m)))
  | .start l => takeMessage l .start (ifWellFormed l .start (fun m => onConsole l (takeStart l m)))
  | .holdClock l => takeMessage l .holdClock (ifWellFormed l .holdClock (fun m => onConsole l (takeHold l m)))
  | .resume l => takeMessage l .resume (ifWellFormed l .resume (fun m => onConsole l (takeResume l m)))
  | .withdrawLot l => takeMessage l .withdrawLot (ifWellFormed l .withdrawLot (fun m => onConsole l (takeWithdraw l m)))
  | .strideEnd c => strideStep c
  | .windowExpiry c => windowStep c
  | .restartDelayEnd c => restartStep c
  | .bid l => takeMessage l .bid (takeBid l)
  | .admittedBid c => takeFromAccount c (fun | .bid b => some (takeAdmittedBid c b) | _ => none)
  | .placement c => takeFromAccount c (fun | .placement h => some (takePlacement c h) | _ => none)
  | .cancelOrder l =>
    takeMessage l .cancelOrder (ifWellFormed l .cancelOrder (fun m => boundDesk l m (takeCancelOrder l m)))
  | .cancelRequest c =>
    takeFromAccount c (fun | .cancel buyer target tag => some (takeCancel c buyer target tag) | _ => none)
  | .buyerNotice c => takeFromAccount c (fun | .notice n => some (takeNotice c n) | _ => none)
  | .endRequest c => takeFromAccount c (fun | .endOrders buyer target => some (takeEndRequest c buyer target) | _ => none)
  | .hallNoticeOpen c => takeFromAccount c (fun | .hall .opened => some (noticeOpen c) | _ => none)
  | .hallNoticeClosing c => takeFromAccount c (fun | .hall .closing => some (noticeClosing c) | _ => none)
  | .hallNoticeClosed c => takeFromAccount c (fun | .hall .closed => some (noticeClosed c) | _ => none)
  | .reservation c => takeFromClock c (fun | .reservation r => some (takeReservation c r) | _ => none)
  | .grant c => takeFromAccount c (fun | .grant line => some (takeGrant c line) | _ => none)
  | .refuse c => takeFromAccount c (fun | .refuse cause => some (takeRefuse c cause) | _ => none)
  | .deliverOutcome c => takeFromClock c takeOutcome
  | .orderEnded c => takeFromClock c takeOrderEnded
  | .activityReport c =>
    takeFromClock c (fun | .activity active answers => some (takeActivity c active answers) | _ => none)
  | .login l => takeMessage l .login (takeLogin l)
  | .logout l => takeMessage l .logout (ifWellFormed l .logout (fun m => boundDesk l m (takeLogout l m)))
  | .present l => takeMessage l .present (ifWellFormed l .present (fun m => boundDesk l m (takePresent l m)))
  | .ageExpiry desk => ageStep desk
  | .snapshotRequest l => takeMessage l .snapshotRequest (ifWellFormed l .snapshotRequest (takeSnapshot l))
  | .buyerSet l => takeMessage l .buyerSet (ifWellFormed l .buyerSet (takeBuyerSet l))
  | .buyerRemove l => takeMessage l .buyerRemove (ifWellFormed l .buyerRemove (takeBuyerRemove l))
  | .creditLimit l => takeMessage l .creditLimit (ifWellFormed l .creditLimit (takeCreditLimit l))
  | .block l => takeMessage l .block (ifWellFormed l .block (setBlocked l true))
  | .unblock l => takeMessage l .unblock (ifWellFormed l .unblock (setBlocked l false))
  | .tariffLoad l => takeMessage l .tariffLoad (ifWellFormed l .tariffLoad (takeTariffLoad l))
  | .closeInvoice l => takeMessage l .closeInvoice (ifWellFormed l .closeInvoice (takeCloseInvoice l))
  | .settled l => takeMessage l .settled (ifWellFormed l .settled (takeSettled l))
  | .openDay l => takeMessage l .openDay (ifWellFormed l .openDay (takeOpenDay l))
  | .closeDay l => takeMessage l .closeDay (ifWellFormed l .closeDay (takeCloseDay l))
  | .statisticsRequest l => takeMessage l .statisticsRequest (ifWellFormed l .statisticsRequest (takeStatistics l))
  | .stateEvent c => takeClockEvent c (fun | .state r => some (takeStateEvent c r) | _ => none)
  | .strideEvent c => takeClockEvent c (fun | .stride r => some (takeStrideEvent c r) | _ => none)
  | .awardEvent c => takeClockEvent c (fun | .award r units => some (takeAwardEvent c r units) | _ => none)
  | .divisorEvent c => takeClockEvent c (fun | .divisor r v => some (takeDivisorEvent c r v) | _ => none)
  | .supplyUnitEvent c => supplyEventStep c
  | .frameTimerExpiry c => frameTimerStep c
  | .bidCopy src => takeReport src (fun | .bid r => some (copyBid r) | _ => none)
  | .outcomeCopy src => takeReport src (fun | .outcome r => some (copyOutcome r) | _ => none)

/-- Every command but the two resets runs its effect on the part. -/
theorem exec_eq_run (i : Instr) (s : State) (h : i ≠ .reset) (h' : i ≠ .resetPinHeldLow) : exec i s = run s (effect i) := by
  cases i with
  | reset => exact absurd rfl h
  | resetPinHeldLow => exact absurd rfl h'
  | _ => rfl

/-- A command leaves the part as it was or as its effect makes it. -/
theorem exec_part {i : Instr} {s t : State} (h : exec i s = .next t) : t.part = s.part ∨ t.part = effect i s.part := by
  have hrun : ∀ f : Part → Part, run s f = .next t → t.part = s.part ∨ t.part = f s.part := by
    intro f hf
    cases hp : s.pinLow with
    | true => rw [run_low hp] at hf; cases hf; exact .inl rfl
    | false => rw [run_high hp] at hf; cases hf; exact .inr rfl
  by_cases hr : i = .reset
  · subst hr; cases h; exact .inr rfl
  · by_cases hl : i = .resetPinHeldLow
    · subst hl; cases h; exact .inr rfl
    · exact hrun _ (exec_eq_run i s hr hl ▸ h)

/-- A property of the part that a change of the time base and the effect of every command keep is kept by every step. -/
theorem kept_of_effect {inv : Part → Prop} (hnow : ∀ p n, inv p → inv { p with now := n })
    (h : ∀ i p, inv p → inv (effect i p)) : Kept inv := by
  intro s t hs ht
  unfold step at ht
  split at ht
  · cases ht
    unfold idle
    split
    · exact hs
    · exact hnow _ _ hs
  · rcases exec_part ht with hp | hp
    · rwa [hp]
    · rw [hp]; exact h _ _ hs

/-! ### Taking a message, a hand-over or a report, as a relation between the part before and the part after -/

/-- Taking a message changes links alone, or hands the message to its unit behind such a change. -/
theorem takeMessage_cases (l : LinkId) (k : Kind) (f : Message → Part → Part) (p : Part) :
    (∃ links, takeMessage l k f p = { p with links := links }) ∨
    ∃ m links, takeMessage l k f p = f m { p with links := links } := by
  unfold takeMessage judgeMessage
  repeat' split
  all_goals first
    | exact .inl ⟨_, rfl⟩
    | exact .inr ⟨_, _, rfl⟩

/-- A message that is well formed is handled, another changes links alone. -/
theorem ifWellFormed_cases (l : LinkId) (k : Kind) (f : Message → Part → Part) (m : Message) (p : Part) :
    ifWellFormed l k f m p = f m p ∨ ∃ links, ifWellFormed l k f m p = { p with links := links } := by
  unfold ifWellFormed
  split
  · exact .inl rfl
  · exact .inr ⟨_, rfl⟩

end Sys2Proof.Machine
end

section
/-! The market (what the Supply Unit, the Clock Units and the hand-overs between them hold) and the account: which operations
leave them alone. -/

namespace Sys2Proof.Machine

/-! ### The market -/

/-- What the Supply Unit and the Clock Units hold, and what the two have handed each other. -/
def Part.market (p : Part) : Supply × PerClock ClockUnit × PerClock (List ToClockFromSupply × List Nat) :=
  (p.supply, p.clocks, p.channels.map (fun h => (h.supplyToClock, h.clockToSupply)))

/-- Reading one clock's value of a family changed alike. -/
@[simp] theorem PerClock.get_map {α β : Type} (v : PerClock α) (g : α → β) (c : ClockId) : (v.map g).get c = g (v.get c) := by
  cases c <;> rfl

/-- Parts with one market have one Supply Unit, the same Clock Units, and the same hand-overs between the two. -/
theorem Part.market_eq_iff {p q : Part} : q.market = p.market ↔
    q.supply = p.supply ∧ q.clocks = p.clocks ∧
      ∀ c, (q.channels.get c).supplyToClock = (p.channels.get c).supplyToClock ∧
        (q.channels.get c).clockToSupply = (p.channels.get c).clockToSupply := by
  constructor
  · intro h
    obtain ⟨hs, hc, hm⟩ : q.supply = p.supply ∧ q.clocks = p.clocks ∧ _ := by simpa [Part.market] using h
    refine ⟨hs, hc, fun c => ?_⟩
    simpa using congrArg (fun v => v.get c) hm
  · rintro ⟨hs, hc, hm⟩
    have h1 := hm .c1
    have h2 := hm .c2
    have h3 := hm .c3
    have h4 := hm .c4
    simp only [PerClock.get] at h1 h2 h3 h4
    simp [Part.market, PerClock.map, hs, hc, h1, h2, h3, h4]

/-- A change of a clock's hand-overs that leaves those between the Supply Unit and the clock alone leaves the market alone. -/
theorem Part.updChannels_market {p : Part} {c : ClockId} {f : Channels → Channels}
    (hs : ∀ h, (f h).supplyToClock = h.supplyToClock) (hc : ∀ h, (f h).clockToSupply = h.clockToSupply) :
    (p.updChannels c f).market = p.market := by
  rw [Part.market_eq_iff]
  refine ⟨rfl, rfl, fun d => ?_⟩
  simp only [Part.updChannels_channels, PerClock.get_upd]
  split <;> simp [hs, hc]

/-! ### Shared operations outside the market -/

@[simp] theorem Part.links_market (p : Part) (v : PerLink Link) : ({ p with links := v } : Part).market = p.market := rfl
@[simp] theorem Part.account_market (p : Part) (v : Account) : ({ p with account := v } : Part).market = p.market := rfl
@[simp] theorem Part.display_market (p : Part) (v : Display) : ({ p with display := v } : Part).market = p.market := rfl
@[simp] theorem Part.accountReports_market (p : Part) (v : List Report) :
    ({ p with accountReports := v } : Part).market = p.market := rfl
@[simp] theorem Part.now_market (p : Part) (v : Nat) : ({ p with now := v } : Part).market = p.market := rfl
@[simp] theorem Part.updLink_market (p : Part) (l : LinkId) (f : Link → Link) : (p.updLink l f).market = p.market := rfl
@[simp] theorem Part.updAccount_market (p : Part) (f : Account → Account) : (p.updAccount f).market = p.market := rfl
@[simp] theorem Part.updBuyer_market (p : Part) (i : Nat) (f : Buyer → Buyer) : (p.updBuyer i f).market = p.market := rfl
@[simp] theorem Part.updHall_market (p : Part) (f : Hall → Hall) : (p.updHall f).market = p.market := rfl
@[simp] theorem Part.updDisplay_market (p : Part) (f : Display → Display) : (p.updDisplay f).market = p.market := rfl
@[simp] theorem Part.reach_market (p : Part) (n : Nat) : (p.reach n).market = p.market := rfl
@[simp] theorem Part.postUrgent_market (p : Part) (l : LinkId) (m : OutMsg) : (p.postUrgent l m).market = p.market := rfl
@[simp] theorem Part.postBulk_market (p : Part) (l : LinkId) (m : OutMsg) : (p.postBulk l m).market = p.market := rfl
@[simp] theorem Part.postLink_market (p : Part) (l : LinkId) (m : OutMsg) : (p.postLink l m).market = p.market := rfl
@[simp] theorem Part.reply_market (p : Part) (l : LinkId) (m : Message) (b : OutBody) : (p.reply l m b).market = p.market := rfl
@[simp] theorem Part.refuseMsg_market (p : Part) (l : LinkId) (m : Message) (e : Cause) :
    (p.refuseMsg l m e).market = p.market := rfl
@[simp] theorem Part.accountReport_market (p : Part) (r : Report) : (p.accountReport r).market = p.market := rfl
@[simp] theorem Part.postRole_market (p : Part) (r : Role) (m : OutMsg) : (p.postRole r m).market = p.market := by
  unfold Part.postRole; split <;> simp
@[simp] theorem Part.postMirror_market (p : Part) (m : OutMsg) : (p.postMirror m).market = p.market := by
  unfold Part.postMirror; split <;> simp
@[simp] theorem Part.toConsole_market (p : Part) (c : ClockId) (b : OutBody) : (p.toConsole c b).market = p.market := by
  simp [Part.toConsole]
@[simp] theorem Part.toClock_market (p : Part) (c : ClockId) (m : ToClock) : (p.toClock c m).market = p.market :=
  Part.updChannels_market (fun _ => rfl) (fun _ => rfl)
@[simp] theorem Part.toAccount_market (p : Part) (c : ClockId) (m : ToAccount) : (p.toAccount c m).market = p.market :=
  Part.updChannels_market (fun _ => rfl) (fun _ => rfl)
@[simp] theorem Part.toDisplay_market (p : Part) (c : ClockId) (m : ClockEvent) : (p.toDisplay c m).market = p.market :=
  Part.updChannels_market (fun _ => rfl) (fun _ => rfl)
@[simp] theorem Part.supplyToDisplay_market (p : Part) (c : ClockId) (m : SupplyEvent) :
    (p.supplyToDisplay c m).market = p.market :=
  Part.updChannels_market (fun _ => rfl) (fun _ => rfl)
@[simp] theorem Part.clockReport_market (p : Part) (c : ClockId) (r : Report) : (p.clockReport c r).market = p.market :=
  Part.updChannels_market (fun _ => rfl) (fun _ => rfl)
@[simp] theorem Part.toAllClocks_market (p : Part) (m : ToClock) : (p.toAllClocks m).market = p.market := by
  simp [Part.toAllClocks]

/-- A fold of steps that each leave a reading of the part alone leaves it alone. -/
theorem foldl_reads {α β : Type} {φ : Part → β} {f : Part → α → Part} (h : ∀ p x, φ (f p x) = φ p) (xs : List α) (p : Part) :
    φ (xs.foldl f p) = φ p := by
  induction xs generalizing p with
  | nil => rfl
  | cons x rest ih => rw [List.foldl_cons, ih, h]

/-! ### The Display Unit and the mirror: neither the market nor the account -/

@[simp] theorem Part.updView_outside (p : Part) (c : ClockId) (f : DisplayClock → DisplayClock) :
    (p.updView c f).market = p.market ∧ (p.updView c f).account = p.account := by
  simp [Part.updView]
@[simp] theorem offerFrame_outside (f : Frame) (p : Part) (l : LinkId) :
    (offerFrame f p l).market = p.market ∧ (offerFrame f p l).account = p.account := by
  unfold offerFrame; (repeat' split) <;> simp
@[simp] theorem composeFrame_outside (c : ClockId) (t : Tier) (p : Part) :
    (composeFrame c t p).market = p.market ∧ (composeFrame c t p).account = p.account := by
  simp [composeFrame, foldl_reads (fun p l => (offerFrame_outside _ p l).1), foldl_reads (fun p l => (offerFrame_outside _ p l).2)]
@[simp] theorem ifChanged_outside (c : ClockId) (p : Part) :
    (ifChanged c p).market = p.market ∧ (ifChanged c p).account = p.account := by
  simp only [ifChanged]; split <;> simp
@[simp] theorem Part.updSet_outside (p : Part) (l : LinkId) (c : ClockId) (f : Accumulator → Accumulator) :
    (p.updSet l c f).market = p.market ∧ (p.updSet l c f).account = p.account := by
  simp [Part.updSet]
@[simp] theorem flagLink_outside (c : ClockId) (p : Part) (l : LinkId) :
    (flagLink c p l).market = p.market ∧ (flagLink c p l).account = p.account := by
  unfold flagLink; (repeat' split) <;> simp
@[simp] theorem setFlags_outside (c : ClockId) (p : Part) :
    (setFlags c p).market = p.market ∧ (setFlags c p).account = p.account := by
  exact ⟨foldl_reads (fun p l => (flagLink_outside c p l).1) _ p, foldl_reads (fun p l => (flagLink_outside c p l).2) _ p⟩
@[simp] theorem countAward_outside (c : ClockId) (n : Nat) (p : Part) :
    (countAward c n p).market = p.market ∧ (countAward c n p).account = p.account := by
  exact ⟨foldl_reads (fun _ _ => by simp) _ p, foldl_reads (fun _ _ => by simp) _ p⟩
@[simp] theorem copyReport_outside (c : ClockId) (r : ClockReport) (p : Part) :
    (copyReport c r p).market = p.market ∧ (copyReport c r p).account = p.account := by
  simp [copyReport]
@[simp] theorem takeStateEvent_outside (c : ClockId) (r : ClockReport) (p : Part) :
    (takeStateEvent c r p).market = p.market ∧ (takeStateEvent c r p).account = p.account := by
  simp only [takeStateEvent]; split <;> simp
@[simp] theorem takeStrideEvent_outside (c : ClockId) (r : ClockReport) (p : Part) :
    (takeStrideEvent c r p).market = p.market ∧ (takeStrideEvent c r p).account = p.account := by
  simp only [takeStrideEvent]; (repeat' split) <;> simp
@[simp] theorem takeAwardEvent_outside (c : ClockId) (r : ClockReport) (n : Nat) (p : Part) :
    (takeAwardEvent c r n p).market = p.market ∧ (takeAwardEvent c r n p).account = p.account := by
  simp [takeAwardEvent]
@[simp] theorem takeDivisorEvent_outside (c : ClockId) (r : ClockReport) (n : Nat) (p : Part) :
    (takeDivisorEvent c r n p).market = p.market ∧ (takeDivisorEvent c r n p).account = p.account := by
  simp [takeDivisorEvent]
@[simp] theorem takeSupplyEvent_outside (c : ClockId) (e : SupplyEvent) (p : Part) :
    (takeSupplyEvent c e p).market = p.market ∧ (takeSupplyEvent c e p).account = p.account := by
  simp only [takeSupplyEvent]; split <;> simp
@[simp] theorem supplyEventStep_outside (c : ClockId) (p : Part) :
    (supplyEventStep c p).market = p.market ∧ (supplyEventStep c p).account = p.account := by
  unfold supplyEventStep
  split
  · simp
  · simp [Part.updChannels_market]
@[simp] theorem frameTimerStep_outside (c : ClockId) (p : Part) :
    (frameTimerStep c p).market = p.market ∧ (frameTimerStep c p).account = p.account := by
  unfold frameTimerStep; (repeat' split) <;> simp
@[simp] theorem takeSnapshot_outside (l : LinkId) (m : Message) (p : Part) :
    (takeSnapshot l m p).market = p.market ∧ (takeSnapshot l m p).account = p.account := by
  unfold takeSnapshot; (repeat' split) <;> simp
@[simp] theorem copyBid_outside (r : BidReport) (p : Part) :
    (copyBid r p).market = p.market ∧ (copyBid r p).account = p.account := by
  unfold copyBid; (repeat' split) <;> simp
@[simp] theorem copyOutcome_outside (r : OutcomeReport) (p : Part) :
    (copyOutcome r p).market = p.market ∧ (copyOutcome r p).account = p.account := by
  unfold copyOutcome; (repeat' split) <;> simp
/-! ### Link Interfaces: neither the market nor the account -/

@[simp] theorem lineActive_outside (l : LinkId) (p : Part) :
    (lineActive l p).market = p.market ∧ (lineActive l p).account = p.account := by
  simp [lineActive]
@[simp] theorem waitFrom_outside (l : LinkId) (p : Part) :
    (waitFrom l p).market = p.market ∧ (waitFrom l p).account = p.account := by
  simp [waitFrom]
@[simp] theorem keepFrom_outside (l : LinkId) (p : Part) :
    (keepFrom l p).market = p.market ∧ (keepFrom l p).account = p.account := by
  simp [keepFrom]
@[simp] theorem messageFrom_outside (l : LinkId) (raw : List Byte) (p : Part) :
    (messageFrom l raw p).market = p.market ∧ (messageFrom l raw p).account = p.account := by
  simp [messageFrom]
@[simp] theorem displayLost_outside (l : LinkId) (p : Part) :
    (displayLost l p).market = p.market ∧ (displayLost l p).account = p.account := by
  simp [displayLost]
@[simp] theorem supervisionLost_outside (p : Part) :
    (supervisionLost p).market = p.market ∧ (supervisionLost p).account = p.account := by
  simp [supervisionLost]
@[simp] theorem keepStep_outside (l : LinkId) (p : Part) :
    (keepStep l p).market = p.market ∧ (keepStep l p).account = p.account := by
  unfold keepStep; (repeat' split) <;> simp
@[simp] theorem refuseUnknown_outside (l : LinkId) (raw : List Byte) (p : Part) :
    (refuseUnknown l raw p).market = p.market ∧ (refuseUnknown l raw p).account = p.account := by
  simp [refuseUnknown]
@[simp] theorem unknownStep_outside (l : LinkId) (p : Part) :
    (unknownStep l p).market = p.market ∧ (unknownStep l p).account = p.account := by
  unfold unknownStep; (repeat' split) <;> simp
@[simp] theorem enterRole_outside (l : LinkId) (m : Message) (k : Claim) (w : Weight) (p : Part) :
    (enterRole l m k w p).market = p.market ∧ (enterRole l m k w p).account = p.account := by
  simp [enterRole]
@[simp] theorem issueDepart_outside (id : Nat) (p : Part) :
    (issueDepart id p).market = p.market ∧ (issueDepart id p).account = p.account := by
  unfold issueDepart; (repeat' split) <;> simp
@[simp] theorem reissueDepart_outside (p : Part) (c : ClockId) :
    (reissueDepart p c).market = p.market ∧ (reissueDepart p c).account = p.account := by
  unfold reissueDepart; (repeat' split) <;> simp
@[simp] theorem warnConsole_outside (p : Part) (c : ClockId) :
    (warnConsole p c).market = p.market ∧ (warnConsole p c).account = p.account := by
  simp [warnConsole]
@[simp] theorem consoleAdmitted_outside (c : ClockId) (p : Part) :
    (consoleAdmitted c p).market = p.market ∧ (consoleAdmitted c p).account = p.account := by
  simp only [consoleAdmitted]; split <;> simp
@[simp] theorem displayAdmitted_outside (l : LinkId) (set : ClockSet) (p : Part) :
    (displayAdmitted l set p).market = p.market ∧ (displayAdmitted l set p).account = p.account := by
  simp only [displayAdmitted]
  exact ⟨foldl_reads (fun p _ => (offerFrame_outside _ p l).1) _ _, foldl_reads (fun p _ => (offerFrame_outside _ p l).2) _ _⟩
@[simp] theorem refuseAnnounce_outside (l : LinkId) (m : Message) (e : Cause) (p : Part) :
    (refuseAnnounce l m e p).market = p.market ∧ (refuseAnnounce l m e p).account = p.account := by
  simp [refuseAnnounce]
@[simp] theorem readStatistics_outside (l : LinkId) (m : Message) (n : LinkId) (clear : Bool) (p : Part) :
    (readStatistics l m n clear p).market = p.market ∧ (readStatistics l m n clear p).account = p.account := by
  simp only [readStatistics]; split <;> simp
@[simp] theorem takeStatistics_outside (l : LinkId) (m : Message) (p : Part) :
    (takeStatistics l m p).market = p.market ∧ (takeStatistics l m p).account = p.account := by
  unfold takeStatistics; (repeat' split) <;> simp
@[simp] theorem takeSlotQuery_outside (l : LinkId) (m : Message) (p : Part) :
    (takeSlotQuery l m p).market = p.market ∧ (takeSlotQuery l m p).account = p.account := by
  simp only [takeSlotQuery]; (repeat' split) <;> simp
/-! ### Desks: not the market -/

@[simp] theorem refreshDesk_market (i : Nat) (p : Part) : (refreshDesk i p).market = p.market := by
  simp [refreshDesk]
@[simp] theorem bindDesk_market (i buyer : Nat) (p : Part) : (bindDesk i buyer p).market = p.market := by
  simp [bindDesk]
@[simp] theorem unbindDesk_market (i buyer : Nat) (p : Part) : (unbindDesk i buyer p).market = p.market := by
  simp [unbindDesk]
@[simp] theorem tellLoggedOut_market (i : Nat) (r : LogoutReason) (buyer : Nat) (tag : Option Nat) (p : Part) :
    (tellLoggedOut i r buyer tag p).market = p.market := by
  unfold tellLoggedOut; (repeat' split) <;> simp
@[simp] theorem sendEndRequests_market (buyer : Nat) (t : Option DeskTarget) (p : Part) :
    (sendEndRequests buyer t p).market = p.market := by
  simp [sendEndRequests]
@[simp] theorem sendNotices_market (buyer : Nat) (t : Option DeskTarget) (p : Part) :
    (sendNotices buyer t p).market = p.market := by
  unfold sendNotices; (repeat' split) <;> simp
@[simp] theorem logOut_market (i buyer : Nat) (r : LogoutReason) (tag : Option Nat) (p : Part) :
    (logOut i buyer r tag p).market = p.market := by
  simp [logOut]
@[simp] theorem refuseDesk_market (l : LinkId) (m : Message) (e : Cause) (p : Part) :
    (refuseDesk l m e p).market = p.market := by
  simp [refuseDesk]
@[simp] theorem replaceOld_market (i : Nat) (p : Part) : (replaceOld i p).market = p.market := by
  unfold replaceOld; (repeat' split) <;> simp
@[simp] theorem releaseOld_market (b : Buyer) (buyer : Nat) (p : Part) : (releaseOld b buyer p).market = p.market := by
  unfold releaseOld; (repeat' split) <;> simp
@[simp] theorem noticeIfMoved_market (b : Buyer) (buyer : Nat) (t : DeskTarget) (p : Part) :
    (noticeIfMoved b buyer t p).market = p.market := by
  unfold noticeIfMoved; (repeat' split) <;> simp
@[simp] theorem bindLogin_market (l : LinkId) (m : Message) (d i buyer : Nat) (b : Buyer) (p : Part) :
    (bindLogin l m d i buyer b p).market = p.market := by
  unfold bindLogin; (repeat' split) <;> simp
@[simp] theorem takeLogin_market (l : LinkId) (m : Message) (p : Part) : (takeLogin l m p).market = p.market := by
  simp only [takeLogin]; (repeat' split) <;> simp
theorem boundDesk_market {l : LinkId} {m : Message} {f : Nat → Nat → Part → Part} (h : ∀ i u p, (f i u p).market = p.market)
    (p : Part) : (boundDesk l m f p).market = p.market := by
  unfold boundDesk; (repeat' split) <;> simp [h]
@[simp] theorem takeLogout_market (l : LinkId) (m : Message) (i buyer : Nat) (p : Part) :
    (takeLogout l m i buyer p).market = p.market := by
  simp [takeLogout]
@[simp] theorem takePresent_market (l : LinkId) (m : Message) (i buyer : Nat) (p : Part) :
    (takePresent l m i buyer p).market = p.market := by
  simp [takePresent]
@[simp] theorem takeCancelOrder_market (l : LinkId) (m : Message) (i buyer : Nat) (p : Part) :
    (takeCancelOrder l m i buyer p).market = p.market := by
  unfold takeCancelOrder; (repeat' split) <;> simp
@[simp] theorem ageStep_market (i : Nat) (p : Part) : (ageStep i p).market = p.market := by
  unfold ageStep; (repeat' split) <;> simp
@[simp] theorem unbindLost_market (l : LinkId) (r : List Region) (p : Part) (e : Nat × Binding) :
    (unbindLost l r p e).market = p.market := by
  unfold unbindLost; (repeat' split) <;> simp
@[simp] theorem deskGroupLost_market (l : LinkId) (p : Part) : (deskGroupLost l p).market = p.market := by
  simp only [deskGroupLost]
  split <;> simp [foldl_reads (fun p e => unbindLost_market l _ p e)]
@[simp] theorem deskGroupAdmitted_market (l : LinkId) (g : DeskGroup) (p : Part) :
    (deskGroupAdmitted l g p).market = p.market := by
  simp [deskGroupAdmitted]
/-! ### Invoices and settlement: not the market -/

theorem Part.tryBegin_market {p q : Part} (h : p.tryBegin = some q) : q.market = p.market := by
  unfold Part.tryBegin at h
  split at h
  · cases h; rfl
  · cases h
@[simp] theorem finishSending_market (n : InvoiceNumber) (p : Part) : (finishSending n p).market = p.market := by
  simp only [finishSending]
  cases h : Part.tryBegin (p.updAccount _) with
  | none => simp
  | some q => simpa using Part.tryBegin_market h
@[simp] theorem placeNext_market (l : LinkId) (k : Cursor) (i : Invoice) (p : Part) :
    (placeNext l k i p).market = p.market := by
  simp only [placeNext]; (repeat' split) <;> simp
@[simp] theorem pump_market (turns : Nat) (p : Part) : (pump turns p).market = p.market := by
  induction turns generalizing p with
  | zero => rfl
  | succ n ih => unfold pump; (repeat' split) <;> simp [ih]
@[simp] theorem startCheck_market (p : Part) : (startCheck p).market = p.market := by
  unfold startCheck
  split
  · rfl
  · next q h => simpa using Part.tryBegin_market h
@[simp] theorem closeInvoice_market (e : CloseCause) (p : Part) (n : InvoiceNumber) :
    (closeInvoice e p n).market = p.market := by
  simp [closeInvoice]
@[simp] theorem warnStoreLow_market (p : Part) : (warnStoreLow p).market = p.market := by
  unfold warnStoreLow
  split
  · rw [foldl_reads (fun p c => (warnConsole_outside p c).1)]; rfl
  · rfl
@[simp] theorem takeTariffLoad_market (l : LinkId) (m : Message) (p : Part) : (takeTariffLoad l m p).market = p.market := by
  simp [takeTariffLoad]
@[simp] theorem takeCloseInvoice_market (l : LinkId) (m : Message) (p : Part) :
    (takeCloseInvoice l m p).market = p.market := by
  unfold takeCloseInvoice; (repeat' split) <;> simp
@[simp] theorem settle_market (l : LinkId) (m : Message) (i : Invoice) (p : Part) : (settle l m i p).market = p.market := by
  simp [settle]
@[simp] theorem takeSettled_market (l : LinkId) (m : Message) (p : Part) : (takeSettled l m p).market = p.market := by
  unfold takeSettled; (repeat' split) <;> simp
@[simp] theorem settlementLost_market (p : Part) : (settlementLost p).market = p.market := by
  simp [settlementLost]
@[simp] theorem goFrom_market (l : LinkId) (p : Part) : (goFrom l p).market = p.market := by
  simp only [goFrom]; split <;> simp
@[simp] theorem receive_market (l : LinkId) (bytes : List Byte) (p : Part) : (receive l bytes p).market = p.market := by
  unfold receive; (repeat' split) <;> simp
@[simp] theorem bulkSent_market (l : LinkId) (p : Part) : (bulkSent l p).market = p.market := by
  unfold bulkSent; (repeat' split) <;> simp
@[simp] theorem transmit_market (l : LinkId) (p : Part) : (transmit l p).market = p.market := by
  unfold transmit; (repeat' split) <;> simp
@[simp] theorem roleAdmitted_market (l : LinkId) (k : Claim) (p : Part) : (roleAdmitted l k p).market = p.market := by
  cases k with
  | logistics => exact foldl_reads (fun p c => (reissueDepart_outside p c).1) _ p
  | _ => simp [roleAdmitted]
@[simp] theorem judgeClaim_market (l : LinkId) (m : Message) (p : Part) : (judgeClaim l m p).market = p.market := by
  unfold judgeClaim; (repeat' split) <;> simp
@[simp] theorem takeAnnounce_market (l : LinkId) (m : Message) (p : Part) : (takeAnnounce l m p).market = p.market := by
  unfold takeAnnounce; (repeat' split) <;> simp
/-! ### The hall and the buyers: not the market -/

@[simp] theorem noticeHall_market (h : HallState) (p : Part) : (noticeHall h p).market = p.market := by
  simp [noticeHall]
@[simp] theorem sendDayState_market (n : Option (Nat × Nat)) (p : Part) : (sendDayState n p).market = p.market := by
  simp [sendDayState, foldl_reads (φ := Part.market)]
@[simp] theorem openDay_market (l : LinkId) (m : Message) (day : Nat) (p : Part) : (openDay l m day p).market = p.market := by
  simp [openDay]
@[simp] theorem takeOpenDay_market (l : LinkId) (m : Message) (p : Part) : (takeOpenDay l m p).market = p.market := by
  simp only [takeOpenDay]; (repeat' split) <;> simp
@[simp] theorem startClosing_market (l : LinkId) (m : Message) (p : Part) : (startClosing l m p).market = p.market := by
  simp [startClosing]
@[simp] theorem takeCloseDay_market (l : LinkId) (m : Message) (p : Part) : (takeCloseDay l m p).market = p.market := by
  unfold takeCloseDay; (repeat' split) <;> simp
@[simp] theorem dropForDay_market (p : Part) (e : Nat × Binding) : (dropForDay p e).market = p.market := by
  simp [dropForDay]
@[simp] theorem unbindAll_market (p : Part) : (unbindAll p).market = p.market := by
  simp [unbindAll, foldl_reads (φ := Part.market)]
@[simp] theorem closeAllInvoices_market (p : Part) : (closeAllInvoices p).market = p.market := by
  exact foldl_reads (fun p n => closeInvoice_market _ p n) _ p
@[simp] theorem becomeClosed_market (p : Part) : (becomeClosed p).market = p.market := by
  simp [becomeClosed]
@[simp] theorem takeActivity_market (c : ClockId) (a : Bool) (n : Option HallState) (p : Part) :
    (takeActivity c a n p).market = p.market := by
  simp only [takeActivity]; split <;> simp
@[simp] theorem updateBuyer_market (l : LinkId) (m : Message) (id : Nat) (b : Buyer) (p : Part) :
    (updateBuyer l m id b p).market = p.market := by
  simp [updateBuyer]
@[simp] theorem createBuyer_market (l : LinkId) (m : Message) (id : Nat) (p : Part) :
    (createBuyer l m id p).market = p.market := by
  simp [createBuyer]
@[simp] theorem takeBuyerSet_market (l : LinkId) (m : Message) (p : Part) : (takeBuyerSet l m p).market = p.market := by
  simp only [takeBuyerSet]; (repeat' split) <;> simp
@[simp] theorem dropBuyer_market (id : Nat) (b : Buyer) (p : Part) : (dropBuyer id b p).market = p.market := by
  unfold dropBuyer; (repeat' split) <;> simp
@[simp] theorem takeBuyerRemove_market (l : LinkId) (m : Message) (p : Part) : (takeBuyerRemove l m p).market = p.market := by
  simp only [takeBuyerRemove]; (repeat' split) <;> simp
@[simp] theorem takeCreditLimit_market (l : LinkId) (m : Message) (p : Part) : (takeCreditLimit l m p).market = p.market := by
  simp only [takeCreditLimit]; split <;> simp
@[simp] theorem setBlocked_market (l : LinkId) (flag : Bool) (m : Message) (p : Part) :
    (setBlocked l flag m p).market = p.market := by
  simp only [setBlocked]; (repeat' split) <;> simp
@[simp] theorem grantReservation_market (c : ClockId) (r : Reservation) (b : Buyer) (p : Part) :
    (grantReservation c r b p).market = p.market := by
  simp only [grantReservation]; split <;> simp
@[simp] theorem takeReservation_market (c : ClockId) (r : Reservation) (p : Part) :
    (takeReservation c r p).market = p.market := by
  unfold takeReservation; (repeat' split) <;> simp
/-! ### Bids at the Account Unit, and deliveries: not the market -/

@[simp] theorem refuseBid_market (b : BidIn) (u : Nat) (e : Cause) (p : Part) : (refuseBid b u e p).market = p.market := by
  simp [refuseBid]
@[simp] theorem refuseMalformedBid_market (l : LinkId) (m : Message) (p : Part) :
    (refuseMalformedBid l m p).market = p.market := by
  simp [refuseMalformedBid]
@[simp] theorem handBid_market (b : BidIn) (u : Nat) (r : Buyer) (p : Part) : (handBid b u r p).market = p.market := by
  simp [handBid]
@[simp] theorem handPlacement_market (b : BidIn) (u : Nat) (r : Buyer) (p : Part) :
    (handPlacement b u r p).market = p.market := by
  simp [handPlacement]
@[simp] theorem checkBuyer_market (b : BidIn) (u : Nat) (p : Part) : (checkBuyer b u p).market = p.market := by
  unfold checkBuyer; (repeat' split) <;> simp
@[simp] theorem checkDesk_market (b : BidIn) (p : Part) : (checkDesk b p).market = p.market := by
  unfold checkDesk; (repeat' split) <;> simp
@[simp] theorem takeBid_market (l : LinkId) (m : Message) (p : Part) : (takeBid l m p).market = p.market := by
  unfold takeBid; (repeat' split) <;> simp
@[simp] theorem deliver_outside (u : Nat) (tag : Option Nat) (o : OutcomeBody) (p : Part) :
    (deliver u tag o p).market = p.market ∧ (deliver u tag o p).account = p.account := by
  unfold deliver; (repeat' split) <;> simp
@[simp] theorem deliverReply_outside (t : DeskTarget) (tag : Option Nat) (r : DeskReply) (p : Part) :
    (deliverReply t tag r p).market = p.market ∧ (deliverReply t tag r p).account = p.account := by
  cases r <;> exact ⟨rfl, rfl⟩
@[simp] theorem sendOrderEnded_outside (l : LinkId) (tag : Option Nat) (e : OrderEndedBody) (p : Part) :
    (sendOrderEnded l tag e p).market = p.market ∧ (sendOrderEnded l tag e p).account = p.account := by
  exact ⟨rfl, rfl⟩

end Sys2Proof.Machine
end

section
/-! The tables and the bindings of the Account Unit: what they are read by, and the operations that change them. -/

namespace Sys2Proof.Machine

/-! ### Reading one field of every record of a table -/

/-- One field of every record, under the keys of the records. -/
def Table.reads {α β : Type} (t : Table α) (g : α → β) : Table β := t.map (fun e => (e.1, g e.2))

theorem Table.find_reads {α β : Type} (t : Table α) (g : α → β) (k : Nat) :
    Table.find (Table.reads t g) k = (Table.find t k).map g := by
  induction t with
  | nil => rfl
  | cons e rest ih =>
    obtain ⟨i, w⟩ := e
    simp only [Table.reads, List.map_cons, Table.find] at ih ⊢
    split
    · rfl
    · exact ih

theorem Table.rising_reads {α β : Type} (t : Table α) (g : α → β) : Table.rising (Table.reads t g) = Table.rising t := by
  rw [Bool.eq_iff_iff, Table.rising_iff, Table.rising_iff]
  simp [Table.reads, Function.comp_def]

theorem Table.length_reads {α β : Type} (t : Table α) (g : α → β) : (Table.reads t g).length = t.length := by
  simp [Table.reads]

/-- A change of a record that leaves the field alone. -/
theorem Table.reads_modify {α β : Type} {t : Table α} {k : Nat} {f : α → α} {g : α → β} (h : ∀ a, g (f a) = g a) :
    Table.reads (Table.modify t k f) g = Table.reads t g := by
  simp only [Table.reads, Table.modify, List.map_map]
  apply List.map_congr_left
  intro e _
  simp only [Function.comp]
  split <;> simp [h]

theorem Table.reads_mapAll {α β : Type} {t : Table α} {f : α → α} {g : α → β} (h : ∀ a, g (f a) = g a) :
    Table.reads (Table.mapAll t f) g = Table.reads t g := by
  simp [Table.reads, Table.mapAll, h]

/-- The lowest free key from `k` on is `k` or later, and at most as many keys later as the table holds. -/
theorem Table.lowestFree_bounds {α : Type} (t : Table α) (k : Nat) :
    k ≤ Table.lowestFree t k ∧ Table.lowestFree t k ≤ k + t.length := by
  induction t generalizing k with
  | nil => simp [Table.lowestFree]
  | cons e rest ih =>
    obtain ⟨i, w⟩ := e
    have := ih (k + 1)
    simp only [Table.lowestFree, List.length_cons]
    split <;> omega

/-- Records freed one after another leave a table in its form. -/
theorem Table.rising_foldl_del {α : Type} (ks : List Nat) (t : Table α) (h : Table.rising t = true) :
    Table.rising (ks.foldl Table.del t) = true := by
  induction ks generalizing t with
  | nil => exact h
  | cons k rest ih => exact ih _ (Table.rising_del t k h)

theorem Table.length_foldl_del_le {α : Type} (ks : List Nat) (t : Table α) : (ks.foldl Table.del t).length ≤ t.length := by
  induction ks generalizing t with
  | nil => exact le_refl _
  | cons k rest ih => exact (ih _).trans (Table.length_del_le t k)

theorem Table.find_foldl_del {α : Type} (ks : List Nat) (t : Table α) (j : Nat) :
    Table.find (ks.foldl Table.del t) j = if j ∈ ks then none else Table.find t j := by
  induction ks generalizing t with
  | nil => simp
  | cons k rest ih =>
    rw [List.foldl_cons, ih, Table.find_del]
    by_cases h1 : j = k <;> by_cases h2 : j ∈ rest <;> simp [h1, h2]

/-! ### The account's form -/

/-- The account's half of the capacities and the form of the tables. -/
structure Account.TablesOk (a : Account) : Prop where
  buyersRise : Table.rising a.buyers = true
  buyersFit : a.buyers.length ≤ Config.maxBuyers
  linesRise : Table.rising a.lines = true
  linesFit : a.lines.length ≤ Config.maxLines
  places : ∀ i x, Table.find a.lines i = some x → 1 ≤ i ∧ i ≤ Config.maxLines
  desksRise : Table.rising a.desks = true
  invoicesFit : a.invoices.length ≤ Config.maxInvoices

/-- The Supply Unit's half. -/
structure Supply.TablesOk (s : Supply) : Prop where
  trainsRise : Table.rising s.trains = true
  trainsFit : s.trains.length ≤ Config.maxTrains
  trolleysRise : Table.rising s.trolleys = true
  trolleysFit : s.trolleys.length ≤ Config.maxTrolleys
  lotsRise : Table.rising s.lots = true
  lotsFit : s.lots.length ≤ Config.maxLots

theorem Part.tablesOk_iff {p : Part} : p.TablesOk ↔ p.supply.TablesOk ∧ p.account.TablesOk := by
  constructor
  · rintro ⟨⟨h1, h2⟩, ⟨h3, h4⟩, ⟨h5, h6⟩, ⟨h7, h8⟩, ⟨h9, h10⟩, h11, h12, h13⟩
    exact ⟨⟨h1, h2, h3, h4, h5, h6⟩, ⟨h7, h8, h9, h10, h11, h12, h13⟩⟩
  · rintro ⟨⟨h1, h2, h3, h4, h5, h6⟩, ⟨h7, h8, h9, h10, h11, h12, h13⟩⟩
    exact ⟨⟨h1, h2⟩, ⟨h3, h4⟩, ⟨h5, h6⟩, ⟨h7, h8⟩, ⟨h9, h10⟩, h11, h12, h13⟩

/-- The buyer bound to a desk. -/
def Account.boundTo (a : Account) (i : Nat) : Option Nat := (Table.find a.desks i).map Binding.buyer

/-- The desk in a buyer's record, if there is a record. -/
def Account.deskOf (a : Account) (u : Nat) : Option (Option Nat) := (Table.find a.buyers u).map Buyer.desk

/-- R106: a desk and a buyer are bound on both sides or on neither, and a bound desk is one of the 512. -/
structure Account.BindingsOk (a : Account) : Prop where
  agree : ∀ i u, a.boundTo i = some u ↔ a.deskOf u = some (some i)
  inHall : ∀ i u, a.boundTo i = some u → i < Config.deskCount

theorem Part.bindingsOk_iff {p : Part} : p.BindingsOk ↔ p.account.BindingsOk := by
  constructor
  · rintro ⟨hd, hb⟩
    refine ⟨fun i u => ⟨fun h => ?_, fun h => ?_⟩, fun i u h => ?_⟩
    · obtain ⟨b, hf, rfl⟩ := Option.map_eq_some_iff.mp h
      obtain ⟨_, r, hr, hi⟩ := hd i b hf
      exact Option.map_eq_some_iff.mpr ⟨r, hr, hi⟩
    · obtain ⟨r, hr, hi⟩ := Option.map_eq_some_iff.mp h
      obtain ⟨b, hf, rfl⟩ := hb u r i hr hi
      exact Option.map_eq_some_iff.mpr ⟨b, hf, rfl⟩
    · obtain ⟨b, hf, rfl⟩ := Option.map_eq_some_iff.mp h
      exact (hd i b hf).1
  · rintro ⟨ha, hh⟩
    refine ⟨fun i b hf => ?_, fun u r i hr hi => ?_⟩
    · have hb : p.account.boundTo i = some b.buyer := Option.map_eq_some_iff.mpr ⟨b, hf, rfl⟩
      obtain ⟨r, hr, hi⟩ := Option.map_eq_some_iff.mp ((ha i _).mp hb)
      exact ⟨hh i _ hb, r, hr, hi⟩
    · have hb := (ha i u).mpr (Option.map_eq_some_iff.mpr ⟨r, hr, hi⟩)
      obtain ⟨b, hf, hu⟩ := Option.map_eq_some_iff.mp hb
      exact ⟨b, hf, hu⟩

/-- The account's tables are as they should be and, where that is asked for, its bindings. -/
def Account.FormOk (asked : Prop) (a : Account) : Prop := a.TablesOk ∧ (asked → a.BindingsOk)

/-- All that the form of the account is read from: who is bound where, the desks in the buyers' records, the lines, and the number of
invoices. -/
def Account.shape (a : Account) : Table Nat × Table (Option Nat) × Table Line × Nat :=
  (Table.reads a.desks Binding.buyer, Table.reads a.buyers Buyer.desk, a.lines, a.invoices.length)

theorem Account.boundTo_of_shape {a b : Account} (h : b.shape = a.shape) (i : Nat) : b.boundTo i = a.boundTo i := by
  simp only [Account.boundTo, ← Table.find_reads]
  exact congrArg (fun x => Table.find x.1 i) h

theorem Account.deskOf_of_shape {a b : Account} (h : b.shape = a.shape) (u : Nat) : b.deskOf u = a.deskOf u := by
  simp only [Account.deskOf, ← Table.find_reads]
  exact congrArg (fun x => Table.find x.2.1 u) h

/-- Accounts of one shape are in form together. -/
theorem Account.FormOk.of_shape {asked : Prop} {a b : Account} (ha : a.FormOk asked) (h : b.shape = a.shape) :
    b.FormOk asked := by
  obtain ⟨ht, hb⟩ := ha
  have hd : Table.reads b.desks Binding.buyer = Table.reads a.desks Binding.buyer := congrArg (·.1) h
  have hr : Table.reads b.buyers Buyer.desk = Table.reads a.buyers Buyer.desk := congrArg (·.2.1) h
  have hl : b.lines = a.lines := congrArg (·.2.2.1) h
  have hi : b.invoices.length = a.invoices.length := congrArg (·.2.2.2) h
  refine ⟨⟨?_, ?_, ?_, ?_, ?_, ?_, ?_⟩, fun hA => ⟨?_, ?_⟩⟩
  · rw [← Table.rising_reads b.buyers Buyer.desk, hr, Table.rising_reads]; exact ht.buyersRise
  · rw [← Table.length_reads b.buyers Buyer.desk, hr, Table.length_reads]; exact ht.buyersFit
  · rw [hl]; exact ht.linesRise
  · rw [hl]; exact ht.linesFit
  · rw [hl]; exact ht.places
  · rw [← Table.rising_reads b.desks Binding.buyer, hd, Table.rising_reads]; exact ht.desksRise
  · rw [hi]; exact ht.invoicesFit
  · intro i u
    rw [Account.boundTo_of_shape h, Account.deskOf_of_shape h]
    exact (hb hA).agree i u
  · intro i u
    rw [Account.boundTo_of_shape h]
    exact (hb hA).inHall i u

section
variable {asked : Prop}

/-! ### Operations of the account that keep its shape -/

theorem Account.updInvoice_shape (a : Account) (n : InvoiceNumber) (f : Invoice → Invoice) :
    (a.updInvoice n f).shape = a.shape := by
  simp [Account.updInvoice, Account.shape]

theorem Account.modifyBuyer_shape (a : Account) (u : Nat) (f : Buyer → Buyer) (h : ∀ b, (f b).desk = b.desk) :
    ({ a with buyers := a.buyers.modify u f } : Account).shape = a.shape := by
  simp [Account.shape, Table.reads_modify h]

theorem Account.close_shape (a : Account) (n : InvoiceNumber) (e : CloseCause) : (a.close n e).shape = a.shape := by
  simp [Account.close, Account.updInvoice, Account.shape, Table.reads_modify]

theorem Account.beginSending_shape (a : Account) (i : Invoice) : (a.beginSending i).shape = a.shape := by
  simp [Account.beginSending, Account.updInvoice, Account.shape]

theorem Account.resetSequences_shape (a : Account) (day : Nat) : (a.resetSequences day).shape = a.shape := by
  simp [Account.resetSequences, Account.shape, Table.reads]

/-! ### Operations of the account that change its tables -/

/-- The account once a desk and a buyer are unbound. -/
def Account.unbind (a : Account) (i u : Nat) : Account :=
  { a with desks := a.desks.del i, buyers := a.buyers.modify u (fun b => { b with desk := none }) }

theorem Account.boundTo_unbind (a : Account) (i u j : Nat) :
    (a.unbind i u).boundTo j = if j = i then none else a.boundTo j := by
  simp only [Account.unbind, Account.boundTo, Table.find_del]
  split <;> rfl

theorem Account.deskOf_unbind (a : Account) (i u v : Nat) :
    (a.unbind i u).deskOf v = if v = u then (a.deskOf v).map (fun _ => none) else a.deskOf v := by
  simp only [Account.unbind, Account.deskOf, Table.find_modify]
  split <;> simp [Function.comp_def]

/-- A desk and the buyer bound to it are unbound. -/
theorem Account.FormOk.unbind {a : Account} (h : a.FormOk asked) {i u : Nat} (hu : asked → a.boundTo i = some u) :
    (a.unbind i u).FormOk asked := by
  obtain ⟨ht, hb⟩ := h
  refine ⟨⟨?_, ?_, ht.linesRise, ht.linesFit, ht.places, Table.rising_del _ _ ht.desksRise, ht.invoicesFit⟩,
    fun hA => ⟨fun j v => ?_, fun j v hj => ?_⟩⟩
  · simpa [Account.unbind] using ht.buyersRise
  · simpa [Account.unbind] using ht.buyersFit
  · have hb := hb hA
    have hu := hu hA
    have hd := (hb.agree i u).mp hu
    rw [Account.boundTo_unbind, Account.deskOf_unbind]
    have hji := hb.agree j v
    by_cases hv : v = u
    · subst hv
      by_cases hj : j = i
      · simp [hj, hd]
      · have hij : ¬ i = j := fun e => hj e.symm
        simp [hj, hd, hji, hij]
    · by_cases hj : j = i
      · subst hj
        have : a.deskOf v ≠ some (some j) := fun he => hv (by simpa [hu, eq_comm] using hji.mpr he)
        simp [hv, this]
      · simp [hv, hj, hji]
  · rw [Account.boundTo_unbind] at hj
    split at hj
    · cases hj
    · exact (hb hA).inHall j v hj

/-- The account once a desk and a buyer are bound. -/
def Account.bind (a : Account) (i u now : Nat) : Account :=
  { a with desks := a.desks.put i ⟨u, now⟩, buyers := a.buyers.modify u (fun b => { b with desk := some i }) }

theorem Account.boundTo_bind (a : Account) (i u now j : Nat) :
    (a.bind i u now).boundTo j = if j = i then some u else a.boundTo j := by
  simp only [Account.bind, Account.boundTo]
  split
  · next h => simp [h]
  · next h => rw [Table.find_put_ne _ _ h]

theorem Account.deskOf_bind (a : Account) (i u now v : Nat) :
    (a.bind i u now).deskOf v = if v = u then (a.deskOf v).map (fun _ => some i) else a.deskOf v := by
  simp only [Account.bind, Account.deskOf, Table.find_modify]
  split <;> simp [Function.comp_def]

/-- A free desk of the hall and an unbound buyer with a record are bound. -/
theorem Account.FormOk.bind {a : Account} (h : a.FormOk asked) {i u : Nat} (now : Nat) (hi : i < Config.deskCount)
    (hfree : asked → a.boundTo i = none) (hu : asked → a.deskOf u = some none) : (a.bind i u now).FormOk asked := by
  obtain ⟨ht, hb⟩ := h
  refine ⟨⟨?_, ?_, ht.linesRise, ht.linesFit, ht.places, Table.rising_put _ _ _ ht.desksRise, ht.invoicesFit⟩,
    fun hA => ⟨fun j v => ?_, fun j v hj => ?_⟩⟩
  · simpa [Account.bind] using ht.buyersRise
  · simpa [Account.bind] using ht.buyersFit
  · have hb := hb hA
    have hfree := hfree hA
    have hu := hu hA
    rw [Account.boundTo_bind, Account.deskOf_bind]
    have hji := hb.agree j v
    by_cases hv : v = u
    · subst hv
      by_cases hj : j = i
      · simp [hj, hu]
      · have hij : ¬ i = j := fun e => hj e.symm
        simp [hj, hij, hji, hu]
    · by_cases hj : j = i
      · subst hj
        have huv : ¬ u = v := fun e => hv e.symm
        have : a.deskOf v ≠ some (some j) := fun he => by simp [hji.mpr he] at hfree
        simp [hv, huv, this]
      · simp [hv, hj, hji]
  · rw [Account.boundTo_bind] at hj
    split at hj
    · next e => exact e ▸ hi
    · exact (hb hA).inHall j v hj

/-- A buyer's record is created while the table has room. -/
theorem Account.FormOk.putBuyer {a : Account} (h : a.FormOk asked) {u : Nat} {b : Buyer} (hn : Table.find a.buyers u = none)
    (hb : b.desk = none) (hl : a.buyers.length < Config.maxBuyers) :
    ({ a with buyers := a.buyers.put u b } : Account).FormOk asked := by
  obtain ⟨ht, hk⟩ := h
  have hd : ∀ v, ({ a with buyers := a.buyers.put u b } : Account).deskOf v = if v = u then some none else a.deskOf v := by
    intro v
    simp only [Account.deskOf]
    split
    · next e => simp [e, hb]
    · next e => rw [Table.find_put_ne _ _ e]
  refine ⟨⟨Table.rising_put _ _ _ ht.buyersRise, (Table.length_put_le _ _ _).trans hl, ht.linesRise, ht.linesFit, ht.places,
    ht.desksRise, ht.invoicesFit⟩, fun hA => ⟨fun i v => ?_, (hk hA).inHall⟩⟩
  rw [hd]
  refine ((hk hA).agree i v).trans ?_
  split
  · next e => simp [e, Account.deskOf, hn]
  · rfl

/-- An unbound buyer's record is removed. -/
theorem Account.FormOk.delBuyer {a : Account} (h : a.FormOk asked) {u : Nat}
    (hu : asked → ∀ i, a.deskOf u ≠ some (some i)) : ({ a with buyers := a.buyers.del u } : Account).FormOk asked := by
  obtain ⟨ht, hk⟩ := h
  have hd : ∀ v, ({ a with buyers := a.buyers.del u } : Account).deskOf v = if v = u then none else a.deskOf v := by
    intro v
    simp only [Account.deskOf, Table.find_del]
    split <;> rfl
  refine ⟨⟨Table.rising_del _ _ ht.buyersRise, (Table.length_del_le _ _).trans ht.buyersFit, ht.linesRise, ht.linesFit,
    ht.places, ht.desksRise, ht.invoicesFit⟩, fun hA => ⟨fun i v => ?_, (hk hA).inHall⟩⟩
  rw [hd]
  refine ((hk hA).agree i v).trans ?_
  split
  · next e => simp [e, hu hA]
  · rfl

/-- The place a new line takes is one of the store's, while the store has room. -/
theorem Account.freePlace_bounds {a : Account} (h : a.lines.length < Config.maxLines) :
    1 ≤ a.freePlace ∧ a.freePlace ≤ Config.maxLines := by
  have := Table.lowestFree_bounds a.lines 1
  unfold Account.freePlace
  omega

/-- A line is filed at a place of the store while it has room (R116, R119). -/
theorem Account.FormOk.fileLine {a : Account} (h : a.FormOk asked) {place : Nat} (x : Line) (u : Nat)
    (hp : 1 ≤ place ∧ place ≤ Config.maxLines) (hroom : a.lines.length < Config.maxLines) :
    (a.fileLine place x u).FormOk asked := by
  obtain ⟨ht, hk⟩ := h
  have hd : (a.fileLine place x u).deskOf = a.deskOf := by
    funext v
    simp only [Account.fileLine, Account.updInvoice, Account.deskOf, Table.find_modify]
    split <;> simp [Function.comp_def]
  refine ⟨⟨?_, ?_, Table.rising_put _ _ _ ht.linesRise, (Table.length_put_le _ _ _).trans hroom, fun i y hy => ?_,
    ht.desksRise, ?_⟩, fun hA => ⟨?_, (hk hA).inHall⟩⟩
  · simpa [Account.fileLine, Account.updInvoice] using ht.buyersRise
  · simpa [Account.fileLine, Account.updInvoice] using ht.buyersFit
  · simp only [Account.fileLine, Account.updInvoice] at hy
    by_cases hi : i = place
    · exact hi ▸ hp
    · rw [Table.find_put_ne _ _ hi] at hy
      exact ht.places i y hy
  · simpa [Account.fileLine, Account.updInvoice] using ht.invoicesFit
  · rw [hd]; exact (hk hA).agree

/-- A settled invoice and its lines leave the account (R131). -/
theorem Account.FormOk.settle {a : Account} (h : a.FormOk asked) (v : Invoice) : (a.settle v).FormOk asked := by
  obtain ⟨ht, hk⟩ := h
  have hclear : ∀ b : Account, b.clearStoreLow.shape = b.shape := by
    intro b
    unfold Account.clearStoreLow
    split <;> rfl
  refine Account.FormOk.of_shape ?_ (hclear _)
  refine ⟨⟨?_, ?_, Table.rising_foldl_del _ _ ht.linesRise, (Table.length_foldl_del_le _ _).trans ht.linesFit,
    fun i x hx => ?_, ht.desksRise, (List.length_filter_le _ _).trans ht.invoicesFit⟩,
    fun hA => ⟨fun i u => ?_, (hk hA).inHall⟩⟩
  · simpa using ht.buyersRise
  · simpa using ht.buyersFit
  · rw [Table.find_foldl_del] at hx
    split at hx
    · cases hx
    · exact ht.places i x hx
  · refine ((hk hA).agree i u).trans ?_
    simp only [Account.deskOf, Table.find_modify]
    split <;> simp [Function.comp_def]

/-- An invoice opens while the pool has room (R116, R121). -/
theorem Account.FormOk.openInvoiceFor {a : Account} (h : a.FormOk asked) (u : Nat) (b : Buyer)
    (hl : a.invoices.length < Config.maxInvoices) : (a.openInvoiceFor u b).FormOk asked := by
  obtain ⟨ht, hk⟩ := h
  refine ⟨⟨?_, ?_, ht.linesRise, ht.linesFit, ht.places, ht.desksRise, ?_⟩,
    fun hA => ⟨fun i v => ?_, (hk hA).inHall⟩⟩
  · simpa [Account.openInvoiceFor] using ht.buyersRise
  · simpa [Account.openInvoiceFor] using ht.buyersFit
  · simpa [Account.openInvoiceFor] using hl
  · refine ((hk hA).agree i v).trans ?_
    simp only [Account.openInvoiceFor, Account.deskOf, Table.find_modify]
    split <;> simp [Function.comp_def]

end

end Sys2Proof.Machine
end

section
/-! The form of the account under the operations of the units: those that keep its shape, and those that change bindings and tables. -/

namespace Sys2Proof.Machine

/-! ### Operations that keep the account's shape -/

@[simp] theorem Part.updBuyer_shape {p : Part} {i : Nat} {f : Buyer → Buyer} (h : ∀ b, (f b).desk = b.desk) :
    (p.updBuyer i f).account.shape = p.account.shape := Account.modifyBuyer_shape _ _ _ h
@[simp] theorem Account.cursor_shape (a : Account) (k : Option Cursor) : ({ a with cursor := k } : Account).shape = a.shape := rfl
@[simp] theorem Part.updHall_shape (p : Part) (f : Hall → Hall) : (p.updHall f).account.shape = p.account.shape := rfl
@[simp] theorem refreshDesk_shape (i : Nat) (p : Part) : (refreshDesk i p).account.shape = p.account.shape := by
  simp [refreshDesk, Account.shape, Table.reads_modify]
@[simp] theorem tellLoggedOut_shape (i : Nat) (r : LogoutReason) (buyer : Nat) (tag : Option Nat) (p : Part) :
    (tellLoggedOut i r buyer tag p).account.shape = p.account.shape := by
  unfold tellLoggedOut; (repeat' split) <;> simp
@[simp] theorem sendEndRequests_shape (buyer : Nat) (t : Option DeskTarget) (p : Part) :
    (sendEndRequests buyer t p).account.shape = p.account.shape := by
  exact Account.modifyBuyer_shape _ _ (fun b => { b with orderMark := false }) (fun _ => rfl)
@[simp] theorem sendNotices_shape (buyer : Nat) (t : Option DeskTarget) (p : Part) :
    (sendNotices buyer t p).account.shape = p.account.shape := by
  unfold sendNotices; (repeat' split) <;> simp
@[simp] theorem refuseDesk_shape (l : LinkId) (m : Message) (e : Cause) (p : Part) :
    (refuseDesk l m e p).account.shape = p.account.shape := by
  simp [refuseDesk]
@[simp] theorem noticeIfMoved_shape (b : Buyer) (buyer : Nat) (t : DeskTarget) (p : Part) :
    (noticeIfMoved b buyer t p).account.shape = p.account.shape := by
  unfold noticeIfMoved; (repeat' split) <;> simp
@[simp] theorem takePresent_shape (l : LinkId) (m : Message) (i buyer : Nat) (p : Part) :
    (takePresent l m i buyer p).account.shape = p.account.shape := by
  simp [takePresent]
@[simp] theorem takeCancelOrder_shape (l : LinkId) (m : Message) (i buyer : Nat) (p : Part) :
    (takeCancelOrder l m i buyer p).account.shape = p.account.shape := by
  unfold takeCancelOrder; (repeat' split) <;> simp
theorem Part.tryBegin_shape {p q : Part} (h : p.tryBegin = some q) : q.account.shape = p.account.shape := by
  unfold Part.tryBegin at h
  split at h
  · cases h; exact Account.beginSending_shape _ _
  · cases h
@[simp] theorem finishSending_shape (n : InvoiceNumber) (p : Part) : (finishSending n p).account.shape = p.account.shape := by
  simp only [finishSending]
  have hdone := Account.updInvoice_shape p.account n (fun x => { x with state := .awaiting })
  cases h : Part.tryBegin (p.updAccount _) with
  | none => exact hdone
  | some q => exact (Part.tryBegin_shape h).trans hdone
@[simp] theorem placeNext_shape (l : LinkId) (k : Cursor) (i : Invoice) (p : Part) :
    (placeNext l k i p).account.shape = p.account.shape := by
  simp only [placeNext]; (repeat' split) <;> simp
@[simp] theorem pump_shape (turns : Nat) (p : Part) : (pump turns p).account.shape = p.account.shape := by
  induction turns generalizing p with
  | zero => rfl
  | succ n ih => unfold pump; (repeat' split) <;> simp [ih]
@[simp] theorem startCheck_shape (p : Part) : (startCheck p).account.shape = p.account.shape := by
  unfold startCheck
  split
  · rfl
  · next q h => simpa using Part.tryBegin_shape h
@[simp] theorem closeInvoice_shape (e : CloseCause) (p : Part) (n : InvoiceNumber) :
    (closeInvoice e p n).account.shape = p.account.shape := by
  simp [closeInvoice, Account.close_shape]
@[simp] theorem warnStoreLow_shape (p : Part) : (warnStoreLow p).account.shape = p.account.shape := by
  unfold warnStoreLow
  split
  · rw [foldl_reads (φ := Part.account) (fun p c => (warnConsole_outside p c).2)]; rfl
  · rfl
@[simp] theorem takeTariffLoad_shape (l : LinkId) (m : Message) (p : Part) :
    (takeTariffLoad l m p).account.shape = p.account.shape := by
  simp [takeTariffLoad, Account.shape]
@[simp] theorem takeCloseInvoice_shape (l : LinkId) (m : Message) (p : Part) :
    (takeCloseInvoice l m p).account.shape = p.account.shape := by
  unfold takeCloseInvoice; (repeat' split) <;> simp
@[simp] theorem settlementLost_shape (p : Part) : (settlementLost p).account.shape = p.account.shape := by
  simp [settlementLost, Account.shape]
@[simp] theorem goFrom_shape (l : LinkId) (p : Part) : (goFrom l p).account.shape = p.account.shape := by
  simp only [goFrom]; split <;> simp
@[simp] theorem receive_shape (l : LinkId) (bytes : List Byte) (p : Part) :
    (receive l bytes p).account.shape = p.account.shape := by
  unfold receive; (repeat' split) <;> simp
@[simp] theorem bulkSent_shape (l : LinkId) (p : Part) : (bulkSent l p).account.shape = p.account.shape := by
  unfold bulkSent; (repeat' split) <;> simp
@[simp] theorem transmit_shape (l : LinkId) (p : Part) : (transmit l p).account.shape = p.account.shape := by
  unfold transmit; (repeat' split) <;> simp
@[simp] theorem deskGroupAdmitted_shape (l : LinkId) (g : DeskGroup) (p : Part) :
    (deskGroupAdmitted l g p).account.shape = p.account.shape := by
  simp [deskGroupAdmitted, Account.shape]
@[simp] theorem roleAdmitted_shape (l : LinkId) (k : Claim) (p : Part) :
    (roleAdmitted l k p).account.shape = p.account.shape := by
  cases k with
  | logistics => exact foldl_reads (φ := fun p => p.account.shape) (fun p c => by simp) _ p
  | _ => simp [roleAdmitted]
@[simp] theorem judgeClaim_shape (l : LinkId) (m : Message) (p : Part) :
    (judgeClaim l m p).account.shape = p.account.shape := by
  unfold judgeClaim; (repeat' split) <;> simp
@[simp] theorem takeAnnounce_shape (l : LinkId) (m : Message) (p : Part) :
    (takeAnnounce l m p).account.shape = p.account.shape := by
  unfold takeAnnounce; (repeat' split) <;> simp
@[simp] theorem noticeHall_shape (h : HallState) (p : Part) : (noticeHall h p).account.shape = p.account.shape := by
  simp [noticeHall]
@[simp] theorem sendDayState_shape (n : Option (Nat × Nat)) (p : Part) :
    (sendDayState n p).account.shape = p.account.shape := by
  simp [sendDayState, foldl_reads (φ := Part.account)]
@[simp] theorem openDay_shape (l : LinkId) (m : Message) (day : Nat) (p : Part) :
    (openDay l m day p).account.shape = p.account.shape := by
  simp [openDay, Account.resetSequences_shape]
@[simp] theorem takeOpenDay_shape (l : LinkId) (m : Message) (p : Part) :
    (takeOpenDay l m p).account.shape = p.account.shape := by
  simp only [takeOpenDay]; (repeat' split) <;> simp
@[simp] theorem startClosing_shape (l : LinkId) (m : Message) (p : Part) :
    (startClosing l m p).account.shape = p.account.shape := by
  simp [startClosing]
@[simp] theorem takeCloseDay_shape (l : LinkId) (m : Message) (p : Part) :
    (takeCloseDay l m p).account.shape = p.account.shape := by
  unfold takeCloseDay; (repeat' split) <;> simp
@[simp] theorem closeAllInvoices_shape (p : Part) : (closeAllInvoices p).account.shape = p.account.shape := by
  exact foldl_reads (φ := fun p => p.account.shape) (fun p n => closeInvoice_shape _ p n) _ p
@[simp] theorem updateBuyer_shape (l : LinkId) (m : Message) (id : Nat) (b : Buyer) (p : Part) :
    (updateBuyer l m id b p).account.shape = p.account.shape := by
  simp [updateBuyer, Account.modifyBuyer_shape, Buyer.updated]
@[simp] theorem takeCreditLimit_shape (l : LinkId) (m : Message) (p : Part) :
    (takeCreditLimit l m p).account.shape = p.account.shape := by
  simp only [takeCreditLimit]; split <;> simp [Account.modifyBuyer_shape]
@[simp] theorem setBlocked_shape (l : LinkId) (flag : Bool) (m : Message) (p : Part) :
    (setBlocked l flag m p).account.shape = p.account.shape := by
  simp only [setBlocked]; (repeat' split) <;> simp [Account.modifyBuyer_shape]
@[simp] theorem refuseBid_shape (b : BidIn) (u : Nat) (e : Cause) (p : Part) :
    (refuseBid b u e p).account.shape = p.account.shape := by
  simp [refuseBid]
@[simp] theorem refuseMalformedBid_shape (l : LinkId) (m : Message) (p : Part) :
    (refuseMalformedBid l m p).account.shape = p.account.shape := by
  simp [refuseMalformedBid]
@[simp] theorem handBid_shape (b : BidIn) (u : Nat) (r : Buyer) (p : Part) :
    (handBid b u r p).account.shape = p.account.shape := by
  simp [handBid]
@[simp] theorem handPlacement_shape (b : BidIn) (u : Nat) (r : Buyer) (p : Part) :
    (handPlacement b u r p).account.shape = p.account.shape := by
  simp [handPlacement, Account.modifyBuyer_shape]
@[simp] theorem checkBuyer_shape (b : BidIn) (u : Nat) (p : Part) : (checkBuyer b u p).account.shape = p.account.shape := by
  unfold checkBuyer; (repeat' split) <;> simp
@[simp] theorem checkDesk_shape (b : BidIn) (p : Part) : (checkDesk b p).account.shape = p.account.shape := by
  unfold checkDesk; (repeat' split) <;> simp
@[simp] theorem takeBid_shape (l : LinkId) (m : Message) (p : Part) : (takeBid l m p).account.shape = p.account.shape := by
  unfold takeBid; (repeat' split) <;> simp

section
variable {asked : Prop}

/-! ### Unbinding (R108, R109, R111 to R113) -/

@[simp] theorem unbindDesk_account (i u : Nat) (p : Part) : (unbindDesk i u p).account = p.account.unbind i u := rfl

@[simp] theorem logOut_shape (i u : Nat) (r : LogoutReason) (tag : Option Nat) (p : Part) :
    (logOut i u r tag p).account.shape = (p.account.unbind i u).shape := by
  simp [logOut]

/-- The buyer of a bound desk is logged out. -/
theorem logOut_formOk {i u : Nat} {r : LogoutReason} {tag : Option Nat} {p : Part} (h : p.account.FormOk asked)
    (hu : asked → p.account.boundTo i = some u) : (logOut i u r tag p).account.FormOk asked :=
  (h.unbind hu).of_shape (logOut_shape i u r tag p)

theorem Account.boundTo_of_find {a : Account} {i : Nat} {b : Binding} (h : Table.find a.desks i = some b) :
    a.boundTo i = some b.buyer := by simp [Account.boundTo, h]

theorem Account.deskOf_of_find {a : Account} {u : Nat} {b : Buyer} (h : Table.find a.buyers u = some b) :
    a.deskOf u = some b.desk := by simp [Account.deskOf, h]

theorem takeLogout_formOk {l : LinkId} {m : Message} {i u : Nat} {p : Part} (h : p.account.FormOk asked)
    (hu : asked → p.account.boundTo i = some u) : (takeLogout l m i u p).account.FormOk asked :=
  (h.unbind hu).of_shape (by simp [takeLogout])

theorem ageStep_formOk {i : Nat} {p : Part} (h : p.account.FormOk asked) : (ageStep i p).account.FormOk asked := by
  unfold ageStep
  split
  · next b _ hb => exact logOut_formOk h (fun _ => Account.boundTo_of_find hb)
  · exact h

/-- Bound desks taken one after another from the table, each unbound or passed over: the rest of them stay bound, and the account stays
in form. -/
theorem foldl_unbind_formOk {f : Part → Nat × Binding → Part}
    (hf : ∀ p e, (f p e).account.shape = p.account.shape ∨ (f p e).account.shape = (p.account.unbind e.1 e.2.buyer).shape)
    (es : Table Binding) (p : Part) (h : p.account.FormOk asked) (hk : (es.map (·.1)).Nodup)
    (hb : ∀ e ∈ es, p.account.boundTo e.1 = some e.2.buyer) : (es.foldl f p).account.FormOk asked := by
  induction es generalizing p with
  | nil => exact h
  | cons e rest ih =>
    obtain ⟨hne, hk⟩ := List.nodup_cons.mp hk
    have he := hb e List.mem_cons_self
    have hother : ∀ x ∈ rest, x.1 ≠ e.1 := fun x hx heq => hne (List.mem_map.mpr ⟨x, hx, heq⟩)
    rw [List.foldl_cons]
    rcases hf p e with hs | hs
    · refine ih _ (h.of_shape hs) hk (fun x hx => ?_)
      rw [Account.boundTo_of_shape hs]
      exact hb x (List.mem_cons_of_mem _ hx)
    · refine ih _ ((h.unbind (fun _ => he)).of_shape hs) hk (fun x hx => ?_)
      rw [Account.boundTo_of_shape hs, Account.boundTo_unbind, if_neg (hother x hx)]
      exact hb x (List.mem_cons_of_mem _ hx)

/-- The whole desk table taken so. -/
theorem foldl_desks_formOk {f : Part → Nat × Binding → Part}
    (hf : ∀ p e, (f p e).account.shape = p.account.shape ∨ (f p e).account.shape = (p.account.unbind e.1 e.2.buyer).shape)
    {p : Part} (h : p.account.FormOk asked) : (p.account.desks.foldl f p).account.FormOk asked := by
  have hr := h.1.desksRise
  refine foldl_unbind_formOk hf _ p h (((Table.rising_iff _).mp hr).imp (fun hlt => ne_of_lt hlt)) (fun e he => ?_)
  exact Account.boundTo_of_find ((Table.find_iff_mem hr e.1 e.2).mpr he)

theorem unbindLost_shape (l : LinkId) (m : List Region) (p : Part) (e : Nat × Binding) :
    (unbindLost l m p e).account.shape = p.account.shape ∨
    (unbindLost l m p e).account.shape = (p.account.unbind e.1 e.2.buyer).shape := by
  unfold unbindLost
  split
  · exact .inl rfl
  · exact .inr (by simp)

theorem deskGroupLost_formOk {l : LinkId} {p : Part} (h : p.account.FormOk asked) : (deskGroupLost l p).account.FormOk asked := by
  unfold deskGroupLost
  split
  · exact h.of_shape rfl
  · exact (foldl_desks_formOk (unbindLost_shape l _) h).of_shape rfl

theorem dropForDay_shape (p : Part) (e : Nat × Binding) :
    (dropForDay p e).account.shape = (p.account.unbind e.1 e.2.buyer).shape := by simp [dropForDay]

theorem unbindAll_formOk {p : Part} (h : p.account.FormOk asked) : (unbindAll p).account.FormOk asked :=
  (foldl_desks_formOk (fun p e => .inr (dropForDay_shape p e)) h).of_shape
    (by simp [unbindAll, Account.shape, Table.reads_mapAll])

theorem becomeClosed_formOk {p : Part} (h : p.account.FormOk asked) : (becomeClosed p).account.FormOk asked := by
  have hs : (becomeClosed p).account.shape = (unbindAll (p.updHall (fun h => { h with state := .closed }))).account.shape := by
    simp [becomeClosed]
  exact (unbindAll_formOk (h.of_shape (Part.updHall_shape p _))).of_shape hs

theorem takeActivity_formOk {c : ClockId} {a : Bool} {n : Option HallState} {p : Part} (h : p.account.FormOk asked) :
    (takeActivity c a n p).account.FormOk asked := by
  simp only [takeActivity]
  split
  · exact becomeClosed_formOk (h.of_shape (Part.updHall_shape p _))
  · exact h.of_shape rfl

/-! ### Binding (R107, R108) -/

/-- A desk index that a map answers is one of the 512. -/
theorem localToHall_lt {m : List Region} {d i : Nat} (h : localToHall m d = some i) : i < Config.deskCount := by
  induction m generalizing d with
  | nil => cases h
  | cons r rest ih =>
    simp only [localToHall] at h
    split at h
    · split at h
      · cases h; assumption
      · cases h
    · exact ih h

theorem Part.hallDesk_lt {p : Part} {l : LinkId} {d i : Nat} (h : p.hallDesk l d = some i) : i < Config.deskCount := by
  unfold Part.hallDesk at h
  split at h
  · cases h
  · exact localToHall_lt h

/-- R108: the desk's old buyer is logged out; another buyer's record keeps its desk. -/
theorem replaceOld_frees {i u : Nat} {p : Part} (h : p.account.FormOk asked) :
    (replaceOld i p).account.FormOk asked ∧ (replaceOld i p).account.boundTo i = none ∧
    (p.account.boundTo i ≠ some u → (replaceOld i p).account.deskOf u = p.account.deskOf u) := by
  unfold replaceOld
  split
  · next hn => exact ⟨h, by simp [Account.boundTo, hn], fun _ => rfl⟩
  · next b hb =>
    have hbound := Account.boundTo_of_find hb
    have hs := logOut_shape i b.buyer .replaced none p
    refine ⟨logOut_formOk h (fun _ => hbound), ?_, fun hu => ?_⟩
    · rw [Account.boundTo_of_shape hs, Account.boundTo_unbind, if_pos rfl]
    · have hne : u ≠ b.buyer := fun e => hu (e ▸ hbound)
      rw [Account.deskOf_of_shape hs, Account.deskOf_unbind, if_neg hne]

/-- R108: the buyer's old desk is released; a free desk stays free. -/
theorem releaseOld_frees {b : Buyer} {i u : Nat} {p : Part} (h : p.account.FormOk asked)
    (hb : asked → p.account.deskOf u = some b.desk) (hi : p.account.boundTo i = none) :
    (releaseOld b u p).account.FormOk asked ∧ (releaseOld b u p).account.boundTo i = none ∧
    (asked → (releaseOld b u p).account.deskOf u = some none) := by
  unfold releaseOld
  split
  · next hn => exact ⟨h, hi, fun hA => hn ▸ hb hA⟩
  · next e he =>
    have hs := tellLoggedOut_shape e .moved u none (unbindDesk e u p)
    rw [unbindDesk_account] at hs
    refine ⟨(h.unbind (fun hA => ((h.2 hA).agree e u).mpr (he ▸ hb hA))).of_shape hs, ?_, fun hA => ?_⟩
    · rw [Account.boundTo_of_shape hs, Account.boundTo_unbind, hi, ite_self]
    · rw [Account.deskOf_of_shape hs, Account.deskOf_unbind, if_pos rfl, hb hA]; rfl

@[simp] theorem bindDesk_account (i u : Nat) (p : Part) : (bindDesk i u p).account = p.account.bind i u p.now := rfl

theorem bindLogin_formOk {l : LinkId} {m : Message} {d i u : Nat} {b : Buyer} {p : Part} (h : p.account.FormOk asked)
    (hi : i < Config.deskCount) (hb : p.account.deskOf u = some b.desk) : (bindLogin l m d i u b p).account.FormOk asked := by
  unfold bindLogin
  split
  · exact h.of_shape (by simp)
  · next hne =>
    have hbound : asked → p.account.boundTo i ≠ some u := fun hA e =>
      hne (by simpa [hb] using ((h.2 hA).agree i u).mp e)
    obtain ⟨h1, hfree, hdesk⟩ := replaceOld_frees h
    obtain ⟨h2, hfree, hnone⟩ := releaseOld_frees h1 (fun hA => (hdesk (hbound hA)).trans hb) hfree
    exact (h2.bind (releaseOld b u (replaceOld i p)).now hi (fun _ => hfree) hnone).of_shape (by simp)

theorem takeLogin_formOk {l : LinkId} {m : Message} {p : Part} (h : p.account.FormOk asked) : (takeLogin l m p).account.FormOk asked := by
  simp only [takeLogin]
  split
  · exact h.of_shape (by simp)
  · split
    · exact h.of_shape (by simp)
    · split
      · exact h.of_shape (by simp)
      · next hd =>
        split
        · exact h.of_shape (by simp)
        · next hb => exact bindLogin_formOk h (Part.hallDesk_lt hd) (Account.deskOf_of_find hb)

/-- What is done for the desk of a LOGOUT, PRESENT or CANCEL ORDER is done for a bound desk and its buyer. -/
theorem boundDesk_formOk {l : LinkId} {m : Message} {f : Nat → Nat → Part → Part} {p : Part} (h : p.account.FormOk asked)
    (hf : ∀ i u, p.account.boundTo i = some u → (f i u p).account.FormOk asked) : (boundDesk l m f p).account.FormOk asked := by
  unfold boundDesk
  repeat' split
  · exact h
  · exact h
  · exact h
  · next hb => exact hf _ _ (Account.boundTo_of_find hb)

/-! ### Buyers, lines and invoices (R97 to R100, R116, R131) -/

theorem takeBuyerSet_formOk {l : LinkId} {m : Message} {p : Part} (h : p.account.FormOk asked) :
    (takeBuyerSet l m p).account.FormOk asked := by
  simp only [takeBuyerSet]
  split
  · exact h
  · split
    · exact h.of_shape (by simp)
    · next hn =>
      split
      · next hl => exact h.putBuyer hn rfl hl
      · exact h

/-- R100: a buyer about to be removed is unbound. -/
theorem dropBuyer_frees {u : Nat} {b : Buyer} {p : Part} (h : p.account.FormOk asked) (hb : p.account.deskOf u = some b.desk) :
    (dropBuyer u b p).account.FormOk asked ∧ ∀ i, (dropBuyer u b p).account.deskOf u ≠ some (some i) := by
  unfold dropBuyer
  split
  · next i hi =>
    have hs := logOut_shape i u .removed none p
    refine ⟨logOut_formOk h (fun hA => ((h.2 hA).agree i u).mpr (hi ▸ hb)), fun j => ?_⟩
    rw [Account.deskOf_of_shape hs, Account.deskOf_unbind, if_pos rfl, hb]
    simp
  · next hn =>
    have hno : ∀ i, p.account.deskOf u ≠ some (some i) := by simp [hb, hn]
    split
    · have hs := sendEndRequests_shape u none p
      exact ⟨h.of_shape hs, fun i => by rw [Account.deskOf_of_shape hs]; exact hno i⟩
    · exact ⟨h, hno⟩

theorem takeBuyerRemove_formOk {l : LinkId} {m : Message} {p : Part} (h : p.account.FormOk asked) :
    (takeBuyerRemove l m p).account.FormOk asked := by
  simp only [takeBuyerRemove]
  split
  · exact h
  · next b hb =>
    split
    · exact h
    · obtain ⟨hform, hfree⟩ := dropBuyer_frees h (Account.deskOf_of_find hb)
      exact hform.delBuyer (fun _ => hfree)

theorem takeSettled_formOk {l : LinkId} {m : Message} {p : Part} (h : p.account.FormOk asked) : (takeSettled l m p).account.FormOk asked := by
  simp only [takeSettled]
  repeat' split
  · exact h
  · next i _ _ => exact h.settle i
  · exact h

/-- R115: a reservation that is not refused finds room for its line and, where the buyer has no open invoice, for an invoice. -/
theorem Account.reservation_room {a : Account} {r : Reservation} {b : Buyer} (hr : a.refusesReservation r = none)
    (hb : Table.find a.buyers r.buyer = some b) :
    a.lines.length < Config.maxLines ∧ (b.openInvoice = none → a.invoices.length < Config.maxInvoices) := by
  unfold Account.refusesReservation at hr
  rw [hb] at hr
  simp only at hr
  repeat' split at hr
  all_goals simp_all

theorem withOpenInvoice_formOk {a : Account} {u : Nat} {b : Buyer} (h : a.FormOk asked)
    (hl : b.openInvoice = none → a.invoices.length < Config.maxInvoices) :
    (a.withOpenInvoice u b).1.FormOk asked ∧ (a.withOpenInvoice u b).1.lines = a.lines := by
  unfold Account.withOpenInvoice
  split
  · exact ⟨h, rfl⟩
  · next hn => exact ⟨h.openInvoiceFor u b (hl hn), rfl⟩

/-- A grant files one line, on the buyer's open invoice. -/
theorem grantReservation_shape (c : ClockId) (r : Reservation) (b : Buyer) (p : Part) : ∃ x,
    (grantReservation c r b p).account.shape =
      ((p.account.withOpenInvoice r.buyer b).1.fileLine p.account.freePlace x r.buyer).shape := by
  simp only [grantReservation, Part.toClock_account, warnStoreLow_shape]
  split
  · exact ⟨_, by rw [closeInvoice_shape]; rfl⟩
  · exact ⟨_, rfl⟩

theorem takeReservation_formOk {c : ClockId} {r : Reservation} {p : Part} (h : p.account.FormOk asked) :
    (takeReservation c r p).account.FormOk asked := by
  unfold takeReservation
  split
  · exact h
  · next b hr hb =>
    obtain ⟨hlines, hinv⟩ := Account.reservation_room hr hb
    obtain ⟨hopen, hsame⟩ := withOpenInvoice_formOk (u := r.buyer) h hinv
    obtain ⟨x, hs⟩ := grantReservation_shape c r b p
    exact (hopen.fileLine x r.buyer (Account.freePlace_bounds hlines) (hsame ▸ hlines)).of_shape hs
  · exact h

end

end Sys2Proof.Machine
end

section
/-! What the Clock Units' operations leave alone: the sale (the Supply Unit, the account, and of every clock its lot, its candidates and
its hand-overs with the Supply Unit), and the keys of the Supply Unit's tables. -/

namespace Sys2Proof.Machine

/-! ### The sale -/

/-- The account, the Supply Unit, and of each clock the lot and the candidates in hand and the hand-overs with the Supply Unit. -/
def Part.sale (p : Part) :
    Account × Supply × PerClock (Option Nat × List Candidate) × PerClock (List ToClockFromSupply × List Nat) :=
  (p.account, p.supply, p.clocks.map (fun k => (k.run.lot, k.candidates)),
    p.channels.map (fun h => (h.supplyToClock, h.clockToSupply)))

theorem PerClock.ext_get {α : Type} {v w : PerClock α} (h : ∀ c, v.get c = w.get c) : v = w := by
  obtain ⟨⟩ := v
  obtain ⟨⟩ := w
  have h1 := h .c1
  have h2 := h .c2
  have h3 := h .c3
  have h4 := h .c4
  simp_all [PerClock.get]

/-- A change of one value that a reading does not see. -/
theorem PerClock.map_upd {α β : Type} {v : PerClock α} {c : ClockId} {f : α → α} {g : α → β} (h : ∀ a, g (f a) = g a) :
    (v.upd c f).map g = v.map g := by
  apply PerClock.ext_get
  intro d
  simp only [PerClock.get_map, PerClock.get_upd]
  split <;> simp [h]

/-- Parts of one sale hold the same in each of its places. -/
theorem Part.sale_eq_iff {p q : Part} : q.sale = p.sale ↔
    q.account = p.account ∧ q.supply = p.supply ∧
    (∀ c, (q.clocks.get c).run.lot = (p.clocks.get c).run.lot ∧ (q.clocks.get c).candidates = (p.clocks.get c).candidates) ∧
    ∀ c, (q.channels.get c).supplyToClock = (p.channels.get c).supplyToClock ∧
      (q.channels.get c).clockToSupply = (p.channels.get c).clockToSupply := by
  constructor
  · intro h
    obtain ⟨ha, hs, hk, hm⟩ : q.account = p.account ∧ q.supply = p.supply ∧ _ ∧ _ := by simpa [Part.sale] using h
    refine ⟨ha, hs, fun c => ?_, fun c => ?_⟩
    · simpa using congrArg (fun v => v.get c) hk
    · simpa using congrArg (fun v => v.get c) hm
  · rintro ⟨ha, hs, hk, hm⟩
    simp only [Part.sale, ha, hs, Prod.mk.injEq, true_and]
    constructor <;> apply PerClock.ext_get <;> intro c
    · simp [hk c]
    · simp [hm c]

/-- A change outside the market and the account leaves the sale alone. -/
theorem Part.sale_of_outside {p q : Part} (h : q.market = p.market ∧ q.account = p.account) : q.sale = p.sale := by
  obtain ⟨hs, hc, hm⟩ := Part.market_eq_iff.mp h.1
  exact Part.sale_eq_iff.mpr ⟨h.2, hs, fun c => by simp [hc], hm⟩

/-- A change of a Clock Unit that leaves its lot and its candidates alone. -/
@[simp] theorem Part.updClock_sale {p : Part} {c : ClockId} {f : ClockUnit → ClockUnit}
    (h : ∀ k, (f k).run.lot = k.run.lot ∧ (f k).candidates = k.candidates) : (p.updClock c f).sale = p.sale := by
  simp only [Part.sale, Part.updClock_account, Part.updClock_supply, Part.updClock_clocks, Part.updClock_channels]
  rw [PerClock.map_upd (fun k => by rw [(h k).1, (h k).2])]

/-- A change of a run record that leaves its lot alone. -/
@[simp] theorem Part.updRun_sale {p : Part} {c : ClockId} {f : RunRecord → RunRecord} (h : ∀ r, (f r).lot = r.lot) :
    (p.updRun c f).sale = p.sale := Part.updClock_sale (fun k => ⟨h k.run, rfl⟩)

/-- A change of a clock's hand-overs that leaves those with the Supply Unit alone. -/
theorem Part.updChannels_sale {p : Part} {c : ClockId} {f : Channels → Channels}
    (hs : ∀ h, (f h).supplyToClock = h.supplyToClock) (hc : ∀ h, (f h).clockToSupply = h.clockToSupply) :
    (p.updChannels c f).sale = p.sale :=
  Part.sale_of_outside ⟨Part.updChannels_market hs hc, rfl⟩

@[simp] theorem Part.links_sale (p : Part) (v : PerLink Link) : ({ p with links := v } : Part).sale = p.sale := rfl
@[simp] theorem Part.now_sale (p : Part) (v : Nat) : ({ p with now := v } : Part).sale = p.sale := rfl
@[simp] theorem Part.reach_sale (p : Part) (n : Nat) : (p.reach n).sale = p.sale := rfl
@[simp] theorem Part.reply_sale (p : Part) (l : LinkId) (m : Message) (b : OutBody) : (p.reply l m b).sale = p.sale := rfl
@[simp] theorem Part.refuseMsg_sale (p : Part) (l : LinkId) (m : Message) (e : Cause) : (p.refuseMsg l m e).sale = p.sale := rfl
@[simp] theorem Part.postUrgent_sale (p : Part) (l : LinkId) (m : OutMsg) : (p.postUrgent l m).sale = p.sale := rfl
@[simp] theorem Part.toConsole_sale (p : Part) (c : ClockId) (b : OutBody) : (p.toConsole c b).sale = p.sale :=
  Part.sale_of_outside ⟨by simp, by simp⟩
@[simp] theorem Part.toClock_sale (p : Part) (c : ClockId) (m : ToClock) : (p.toClock c m).sale = p.sale :=
  Part.sale_of_outside ⟨by simp, by simp⟩
@[simp] theorem Part.toAccount_sale (p : Part) (c : ClockId) (m : ToAccount) : (p.toAccount c m).sale = p.sale :=
  Part.sale_of_outside ⟨by simp, by simp⟩
@[simp] theorem Part.toDisplay_sale (p : Part) (c : ClockId) (m : ClockEvent) : (p.toDisplay c m).sale = p.sale :=
  Part.sale_of_outside ⟨by simp, by simp⟩
@[simp] theorem Part.supplyToDisplay_sale (p : Part) (c : ClockId) (m : SupplyEvent) : (p.supplyToDisplay c m).sale = p.sale :=
  Part.sale_of_outside ⟨by simp, by simp⟩
@[simp] theorem Part.supplyEvent_sale (p : Part) (c : ClockId) (b : Bool) : (p.supplyEvent c b).sale = p.sale := by
  simp [Part.supplyEvent]
@[simp] theorem Part.clockReport_sale (p : Part) (c : ClockId) (r : Report) : (p.clockReport c r).sale = p.sale :=
  Part.sale_of_outside ⟨by simp, by simp⟩
@[simp] theorem enterState_sale (c : ClockId) (st : ClockState) (p : Part) : (enterState c st p).sale = p.sale := by
  simp [enterState]

/-! ### Operations of the Clock Units that leave the sale alone -/

@[simp] theorem endOrder_sale (c : ClockId) (o : Order) (r : EndReason) (t : DeskTarget) (tag : Option Nat) (p : Part) :
    (endOrder c o r t tag p).sale = p.sale := by
  simp [endOrder]
@[simp] theorem endIfCredit_sale (c : ClockId) (e : Cause) (x : Candidate) (p : Part) :
    (endIfCredit c e x p).sale = p.sale := by
  unfold endIfCredit; (repeat' split) <;> simp
@[simp] theorem refuseCandidate_sale (c : ClockId) (n : Option Nat) (e : Cause) (p : Part) (x : Candidate) :
    (refuseCandidate c n e p x).sale = p.sale := by
  simp [refuseCandidate]
@[simp] theorem refuseAll_sale (c : ClockId) (e : Cause) (xs : List Candidate) (p : Part) :
    (refuseAll c e xs p).sale = p.sale := by
  exact foldl_reads (fun p x => refuseCandidate_sale c none e p x) xs p
@[simp] theorem startStride_sale (c : ClockId) (p : Part) : (startStride c p).sale = p.sale := by
  simp [startStride]
@[simp] theorem startRestart_sale (c : ClockId) (p : Part) : (startRestart c p).sale = p.sale := by
  simp [startRestart]
@[simp] theorem applyHold_sale (c : ClockId) (h : HeldFrom) (p : Part) : (applyHold c h p).sale = p.sale := by
  simp [applyHold]
@[simp] theorem enterReady_sale (c : ClockId) (p : Part) : (enterReady c p).sale = p.sale := by
  simp [enterReady]
@[simp] theorem enterRestart_sale (c : ClockId) (p : Part) : (enterRestart c p).sale = p.sale := by
  simp [enterRestart]
@[simp] theorem sendReservation_sale (c : ClockId) (x : Candidate) (p : Part) : (sendReservation c x p).sale = p.sale := by
  simp [sendReservation]
@[simp] theorem countWin_sale (c : ClockId) (x : Candidate) (p : Part) : (countWin c x p).sale = p.sale := by
  unfold countWin; (repeat' split) <;> simp
@[simp] theorem tellAward_sale (c : ClockId) (x : Candidate) (price line : Nat) (p : Part) :
    (tellAward c x price line p).sale = p.sale := by
  simp [tellAward]
@[simp] theorem openWindow_sale (c : ClockId) (p : Part) : (openWindow c p).sale = p.sale := by
  simp [openWindow]
@[simp] theorem refuseAdmitted_sale (c : ClockId) (b : BidHandover) (e : Cause) (p : Part) :
    (refuseAdmitted c b e p).sale = p.sale := by
  simp [refuseAdmitted]
@[simp] theorem appendOrder_sale (c : ClockId) (h : PlacementHandover) (n : Option Nat) (p : Part) :
    (appendOrder c h n p).sale = p.sale := by
  simp [appendOrder]
@[simp] theorem refusePlacement_sale (c : ClockId) (h : PlacementHandover) (p : Part) :
    (refusePlacement c h p).sale = p.sale := by
  simp [refusePlacement]
@[simp] theorem takePlacement_sale (c : ClockId) (h : PlacementHandover) (p : Part) :
    (takePlacement c h p).sale = p.sale := by
  unfold takePlacement; (repeat' split) <;> simp
@[simp] theorem markFired_sale (c : ClockId) (n : Nat) (p : Part) : (markFired c n p).sale = p.sale := by
  simp [markFired]
@[simp] theorem takeNotice_sale (c : ClockId) (n : NoticeHandover) (p : Part) : (takeNotice c n p).sale = p.sale := by
  unfold takeNotice; (repeat' split) <;> simp
@[simp] theorem takeCancel_sale (c : ClockId) (u : Nat) (t : DeskTarget) (tag : Option Nat) (p : Part) :
    (takeCancel c u t tag p).sale = p.sale := by
  unfold takeCancel; (repeat' split) <;> simp
@[simp] theorem takeEndRequest_sale (c : ClockId) (u : Nat) (t : Option DeskTarget) (p : Part) :
    (takeEndRequest c u t p).sale = p.sale := by
  unfold takeEndRequest; (repeat' split) <;> simp
@[simp] theorem endAll_sale (c : ClockId) (r : EndReason) (os : List Order) (p : Part) : (endAll c r os p).sale = p.sale := by
  exact foldl_reads (fun p o => endOrder_sale c o r o.target none p) os p
@[simp] theorem changeOfProduct_sale (c : ClockId) (p : Part) : (changeOfProduct c p).sale = p.sale := by
  simp [changeOfProduct]
@[simp] theorem endForDay_sale (c : ClockId) (p : Part) : (endForDay c p).sale = p.sale := by
  simp [endForDay]
@[simp] theorem takeLotWithdrawn_sale (c : ClockId) (i n : Nat) (p : Part) : (takeLotWithdrawn c i n p).sale = p.sale := by
  unfold takeLotWithdrawn; (repeat' split) <;> simp
@[simp] theorem takeConfigure_sale (l : LinkId) (m : Message) (c : ClockId) (p : Part) :
    (takeConfigure l m c p).sale = p.sale := by
  simp only [takeConfigure]; (repeat' split) <;> simp
@[simp] theorem holdNow_sale (c : ClockId) (b : HeldFrom) (e : HoldCause) (p : Part) : (holdNow c b e p).sale = p.sale := by
  simp [holdNow]
@[simp] theorem holdLater_sale (c : ClockId) (e : HoldCause) (p : Part) : (holdLater c e p).sale = p.sale := by
  exact Part.updRun_sale (fun r => by split <;> rfl)
@[simp] theorem takeHold_sale (l : LinkId) (m : Message) (c : ClockId) (p : Part) : (takeHold l m c p).sale = p.sale := by
  unfold takeHold; (repeat' split) <;> simp
@[simp] theorem resumeHeld_sale (c : ClockId) (p : Part) : (resumeHeld c p).sale = p.sale := by
  simp only [resumeHeld]; (repeat' split) <;> simp
@[simp] theorem resumePending_sale (l : LinkId) (m : Message) (c : ClockId) (p : Part) :
    (resumePending l m c p).sale = p.sale := by
  unfold resumePending; (repeat' split) <;> simp
@[simp] theorem takeResume_sale (l : LinkId) (m : Message) (c : ClockId) (p : Part) : (takeResume l m c p).sale = p.sale := by
  unfold takeResume; (repeat' split) <;> simp
@[simp] theorem consoleLost_sale (c : ClockId) (p : Part) : (consoleLost c p).sale = p.sale := by
  unfold consoleLost; (repeat' split) <;> simp
@[simp] theorem answerNotice_sale (c : ClockId) (h : HallState) (p : Part) : (answerNotice c h p).sale = p.sale := by
  simp [answerNotice]
@[simp] theorem setHallView_sale (c : ClockId) (h : HallState) (p : Part) : (setHallView c h p).sale = p.sale := by
  simp [setHallView]
@[simp] theorem noticeOpen_sale (c : ClockId) (p : Part) : (noticeOpen c p).sale = p.sale := by
  simp [noticeOpen]
@[simp] theorem noticeClosing_sale (c : ClockId) (p : Part) : (noticeClosing c p).sale = p.sale := by
  simp only [noticeClosing]; split <;> simp
@[simp] theorem noticeClosed_sale (c : ClockId) (p : Part) : (noticeClosed c p).sale = p.sale := by
  simp [noticeClosed]

/-! ### The keys of the Supply Unit's tables, with the account -/

/-- The keys of the three tables of the Supply Unit, and the account. -/
def Part.tables (p : Part) : List Nat × List Nat × List Nat × Account :=
  (p.supply.trains.keys, p.supply.trolleys.keys, p.supply.lots.keys, p.account)

theorem Table.keys_modify {α : Type} (t : Table α) (k : Nat) (f : α → α) : Table.keys (Table.modify t k f) = Table.keys t := by
  simp only [Table.keys, Table.modify, List.map_map]
  apply List.map_congr_left
  intro e _
  simp only [Function.comp]
  split <;> rfl

theorem Table.keys_mapAll {α : Type} (t : Table α) (f : α → α) : Table.keys (Table.mapAll t f) = Table.keys t := by
  simp [Table.keys, Table.mapAll, Function.comp_def]

/-- Tables of the same keys are in canonical form together and of one length. -/
theorem Table.form_of_keys {α : Type} {t u : Table α} (h : Table.keys u = Table.keys t) :
    Table.rising u = Table.rising t ∧ u.length = t.length := by
  constructor
  · rw [Bool.eq_iff_iff, Table.rising_iff, Table.rising_iff]
    exact iff_of_eq (congrArg _ h)
  · simpa [Table.keys] using congrArg List.length h

theorem Supply.TablesOk.of_keys {s v : Supply} (h : s.TablesOk) (ht : v.trains.keys = s.trains.keys)
    (hr : v.trolleys.keys = s.trolleys.keys) (hl : v.lots.keys = s.lots.keys) : v.TablesOk := by
  obtain ⟨ht, ht'⟩ := Table.form_of_keys ht
  obtain ⟨hr, hr'⟩ := Table.form_of_keys hr
  obtain ⟨hl, hl'⟩ := Table.form_of_keys hl
  exact ⟨ht.trans h.trainsRise, ht' ▸ h.trainsFit, hr.trans h.trolleysRise, hr' ▸ h.trolleysFit, hl.trans h.lotsRise,
    hl' ▸ h.lotsFit⟩

theorem Part.tables_of_sale {p q : Part} (h : q.sale = p.sale) : q.tables = p.tables := by
  obtain ⟨ha, hs, _⟩ := Part.sale_eq_iff.mp h
  simp [Part.tables, ha, hs]

@[simp] theorem Part.updClock_tables (p : Part) (c : ClockId) (f : ClockUnit → ClockUnit) : (p.updClock c f).tables = p.tables := rfl
@[simp] theorem Part.updRun_tables (p : Part) (c : ClockId) (f : RunRecord → RunRecord) : (p.updRun c f).tables = p.tables := rfl
@[simp] theorem Part.updChannels_tables (p : Part) (c : ClockId) (f : Channels → Channels) :
    (p.updChannels c f).tables = p.tables := rfl
@[simp] theorem Part.links_tables (p : Part) (v : PerLink Link) : ({ p with links := v } : Part).tables = p.tables := rfl
@[simp] theorem Part.reach_tables (p : Part) (n : Nat) : (p.reach n).tables = p.tables := rfl
@[simp] theorem Part.reply_tables (p : Part) (l : LinkId) (m : Message) (b : OutBody) : (p.reply l m b).tables = p.tables := rfl
@[simp] theorem Part.refuseMsg_tables (p : Part) (l : LinkId) (m : Message) (e : Cause) :
    (p.refuseMsg l m e).tables = p.tables := rfl
@[simp] theorem Part.toConsole_tables (p : Part) (c : ClockId) (b : OutBody) : (p.toConsole c b).tables = p.tables :=
  Part.tables_of_sale (by simp)
@[simp] theorem Part.toSupply_tables (p : Part) (c : ClockId) (i : Nat) : (p.toSupply c i).tables = p.tables := rfl
@[simp] theorem Part.tellClock_tables (p : Part) (c : ClockId) (m : ToClockFromSupply) : (p.tellClock c m).tables = p.tables := rfl
@[simp] theorem Part.toDisplay_tables (p : Part) (c : ClockId) (e : ClockEvent) : (p.toDisplay c e).tables = p.tables := rfl
@[simp] theorem Part.clockReport_tables (p : Part) (c : ClockId) (r : Report) : (p.clockReport c r).tables = p.tables := rfl
@[simp] theorem enterState_tables (c : ClockId) (st : ClockState) (p : Part) : (enterState c st p).tables = p.tables :=
  Part.tables_of_sale (by simp)
@[simp] theorem Part.updLot_tables (p : Part) (i : Nat) (f : Lot → Lot) : (p.updLot i f).tables = p.tables := by
  simp [Part.tables, Table.keys_modify]
@[simp] theorem Part.updTrolley_tables (p : Part) (i : Nat) (f : Trolley → Trolley) : (p.updTrolley i f).tables = p.tables := by
  simp [Part.tables, Table.keys_modify]

/-! ### Operations of the Clock Units that change the sale but no key -/

@[simp] theorem refuseCandidate_tables (c : ClockId) (n : Option Nat) (e : Cause) (p : Part) (x : Candidate) :
    (refuseCandidate c n e p x).tables = p.tables := by
  exact Part.tables_of_sale (by simp)
@[simp] theorem refuseAll_tables (c : ClockId) (e : Cause) (xs : List Candidate) (p : Part) :
    (refuseAll c e xs p).tables = p.tables := by
  exact Part.tables_of_sale (by simp)
@[simp] theorem startStride_tables (c : ClockId) (p : Part) : (startStride c p).tables = p.tables := by
  exact Part.tables_of_sale (by simp)
@[simp] theorem applyHold_tables (c : ClockId) (h : HeldFrom) (p : Part) : (applyHold c h p).tables = p.tables := by
  exact Part.tables_of_sale (by simp)
@[simp] theorem enterReady_tables (c : ClockId) (p : Part) : (enterReady c p).tables = p.tables := by
  exact Part.tables_of_sale (by simp)
@[simp] theorem enterRestart_tables (c : ClockId) (p : Part) : (enterRestart c p).tables = p.tables := by
  exact Part.tables_of_sale (by simp)
@[simp] theorem sendReservation_tables (c : ClockId) (x : Candidate) (p : Part) :
    (sendReservation c x p).tables = p.tables := by
  exact Part.tables_of_sale (by simp)
@[simp] theorem countWin_tables (c : ClockId) (x : Candidate) (p : Part) : (countWin c x p).tables = p.tables := by
  exact Part.tables_of_sale (by simp)
@[simp] theorem tellAward_tables (c : ClockId) (x : Candidate) (price line : Nat) (p : Part) :
    (tellAward c x price line p).tables = p.tables := by
  exact Part.tables_of_sale (by simp)
@[simp] theorem openWindow_tables (c : ClockId) (p : Part) : (openWindow c p).tables = p.tables := by
  exact Part.tables_of_sale (by simp)
@[simp] theorem refuseAdmitted_tables (c : ClockId) (b : BidHandover) (e : Cause) (p : Part) :
    (refuseAdmitted c b e p).tables = p.tables := by
  exact Part.tables_of_sale (by simp)
@[simp] theorem markFired_tables (c : ClockId) (n : Nat) (p : Part) : (markFired c n p).tables = p.tables := by
  exact Part.tables_of_sale (by simp)
@[simp] theorem changeOfProduct_tables (c : ClockId) (p : Part) : (changeOfProduct c p).tables = p.tables := by
  exact Part.tables_of_sale (by simp)
@[simp] theorem lotDone_tables (c : ClockId) (o : LotOutcome) (p : Part) : (lotDone c o p).tables = p.tables := by
  simp [lotDone]
@[simp] theorem noAward_tables (c : ClockId) (p : Part) : (noAward c p).tables = p.tables := by
  simp only [noAward]; (repeat' split) <;> simp
@[simp] theorem afterAward_tables (c : ClockId) (price : Nat) (p : Part) : (afterAward c price p).tables = p.tables := by
  simp only [afterAward]; (repeat' split) <;> simp
@[simp] theorem tryCandidates_tables (c : ClockId) (xs : List Candidate) (p : Part) :
    (tryCandidates c xs p).tables = p.tables := by
  induction xs generalizing p with
  | nil => simp [tryCandidates]
  | cons x rest ih => unfold tryCandidates; split <;> simp [ih]
@[simp] theorem expireWindow_tables (c : ClockId) (p : Part) : (expireWindow c p).tables = p.tables := by
  simp [expireWindow]
@[simp] theorem expireIfZero_tables (c : ClockId) (p : Part) : (expireIfZero c p).tables = p.tables := by
  unfold expireIfZero; (repeat' split) <;> simp
@[simp] theorem windowStep_tables (c : ClockId) (p : Part) : (windowStep c p).tables = p.tables := by
  unfold windowStep; (repeat' split) <;> simp
@[simp] theorem afterRefusal_tables (c : ClockId) (xs : List Candidate) (p : Part) :
    (afterRefusal c xs p).tables = p.tables := by
  unfold afterRefusal; (repeat' split) <;> simp
@[simp] theorem takeRefuse_tables (c : ClockId) (e : Cause) (p : Part) : (takeRefuse c e p).tables = p.tables := by
  unfold takeRefuse; (repeat' split) <;> simp
@[simp] theorem mergeSlotPick_tables (c : ClockId) (x : Candidate) (p : Part) : (mergeSlotPick c x p).tables = p.tables := by
  unfold mergeSlotPick; (repeat' split) <;> simp
@[simp] theorem recordAward_tables (c : ClockId) (x : Candidate) (price : Nat) (p : Part) :
    (recordAward c x price p).tables = p.tables := by
  simp [recordAward]
@[simp] theorem takeGrant_tables (c : ClockId) (line : Nat) (p : Part) : (takeGrant c line p).tables = p.tables := by
  unfold takeGrant; (repeat' split) <;> simp
@[simp] theorem enterWithRoom_tables (c : ClockId) (x : Candidate) (p : Part) : (enterWithRoom c x p).tables = p.tables := by
  simp only [enterWithRoom]; split <;> simp
@[simp] theorem enterFull_tables (c : ClockId) (x : Candidate) (p : Part) : (enterFull c x p).tables = p.tables := by
  unfold enterFull; (repeat' split) <;> simp
@[simp] theorem enterCandidate_tables (c : ClockId) (x : Candidate) (p : Part) :
    (enterCandidate c x p).tables = p.tables := by
  unfold enterCandidate; (repeat' split) <;> simp
@[simp] theorem enterAgain_tables (c : ClockId) (x held : Candidate) (p : Part) :
    (enterAgain c x held p).tables = p.tables := by
  unfold enterAgain; (repeat' split) <;> simp
@[simp] theorem admitBid_tables (c : ClockId) (b : BidHandover) (p : Part) : (admitBid c b p).tables = p.tables := by
  simp only [admitBid]; split <;> simp
@[simp] theorem takeAdmittedBid_tables (c : ClockId) (b : BidHandover) (p : Part) :
    (takeAdmittedBid c b p).tables = p.tables := by
  unfold takeAdmittedBid; (repeat' split) <;> simp
@[simp] theorem fireOrder_tables (c : ClockId) (o : Order) (p : Part) : (fireOrder c o p).tables = p.tables := by
  simp [fireOrder]
@[simp] theorem offerOrder_tables (c : ClockId) (p : Part) (n : Nat) : (offerOrder c p n).tables = p.tables := by
  unfold offerOrder; (repeat' split) <;> simp
@[simp] theorem offerPosition_tables (c : ClockId) (p : Part) : (offerPosition c p).tables = p.tables := by
  rw [offerPosition, expireIfZero_tables]
  exact foldl_reads (fun p n => offerOrder_tables c p n) _ p
@[simp] theorem takeHeadLot_tables (c : ClockId) (i : Nat) (p : Part) : (takeHeadLot c i p).tables = p.tables := by
  unfold takeHeadLot; (repeat' split) <;> simp
theorem startRun_tables {c : ClockId} {price : Nat} {announce : OutBody → Part → Part} {differs : Bool} {p : Part}
    (h : ∀ b q, (announce b q).tables = q.tables) : (startRun c price announce differs p).tables = p.tables := by
  simp [startRun, h]
@[simp] theorem startByConsole_tables (l : LinkId) (m : Message) (c : ClockId) (p : Part) :
    (startByConsole l m c p).tables = p.tables := by
  simp only [startByConsole]; rw [startRun_tables (fun b q => Part.reply_tables q l m b)]
@[simp] theorem takeStart_tables (l : LinkId) (m : Message) (c : ClockId) (p : Part) :
    (takeStart l m c p).tables = p.tables := by
  unfold takeStart; (repeat' split) <;> simp
@[simp] theorem restartStep_tables (c : ClockId) (p : Part) : (restartStep c p).tables = p.tables := by
  unfold restartStep
  (repeat' split) <;> simp [startRun_tables]
@[simp] theorem strideGoesOn_tables (c : ClockId) (p : Part) : (strideGoesOn c p).tables = p.tables := by
  simp [strideGoesOn]
@[simp] theorem strideRunning_tables (c : ClockId) (p : Part) : (strideRunning c p).tables = p.tables := by
  simp only [strideRunning]; (repeat' split) <;> simp
@[simp] theorem strideFloor_tables (c : ClockId) (p : Part) : (strideFloor c p).tables = p.tables := by
  simp only [strideFloor]; split <;> simp
@[simp] theorem strideStep_tables (c : ClockId) (p : Part) : (strideStep c p).tables = p.tables := by
  unfold strideStep; (repeat' split) <;> simp
@[simp] theorem abandonWindow_tables (c : ClockId) (p : Part) : (abandonWindow c p).tables = p.tables := by
  simp [abandonWindow]
@[simp] theorem withdrawHead_tables (l : LinkId) (m : Message) (c : ClockId) (p : Part) :
    (withdrawHead l m c p).tables = p.tables := by
  unfold withdrawHead; (repeat' split) <;> simp
@[simp] theorem takeWithdraw_tables (l : LinkId) (m : Message) (c : ClockId) (p : Part) :
    (takeWithdraw l m c p).tables = p.tables := by
  simp only [takeWithdraw]; (repeat' split) <;> simp

/-- A message of a console is handled by the clock of the role, or does nothing. -/
theorem onConsole_cases (l : LinkId) (f : ClockId → Part → Part) (p : Part) : onConsole l f p = p ∨ ∃ c, onConsole l f p = f c p := by
  unfold onConsole
  split
  · exact .inr ⟨_, rfl⟩
  · exact .inl rfl

end Sys2Proof.Machine
end

section
/-! The operations of the Supply Unit: what each is, what it leaves alone, and that it keeps the tables in form. -/

namespace Sys2Proof.Machine

/-! ### What the Supply Unit tells -/

/-- R15, R20: the Clock Unit is told the head of its queue. -/
theorem Part.tellHead_eq (p : Part) (c : ClockId) : p.tellHead c = p.tellClock c (p.supply.headAnswer c) := by
  unfold Part.tellHead Supply.headAnswer Part.lot
  cases p.supply.queues.get c with
  | nil => rfl
  | cons h rest =>
    cases hf : Table.find p.supply.lots h with
    | none => simp [hf]
    | some t => by_cases hp : t.state = .presented <;> simp [hf, hp]

/-- R138: the next lot is read from the Supply Unit alone. -/
theorem Part.nextLot_eq (p : Part) (c : ClockId) : p.nextLot c = p.supply.nextLot c := by
  unfold Part.nextLot Supply.nextLot Part.isPresented Part.lot
  cases p.supply.queues.get c with
  | nil => rfl
  | cons h rest => cases hf : Table.find p.supply.lots h <;> simp [hf]

@[simp] theorem Part.tellHead_supply (p : Part) (c : ClockId) : (p.tellHead c).supply = p.supply := by simp [Part.tellHead_eq]
@[simp] theorem Part.tellHead_clocks (p : Part) (c : ClockId) : (p.tellHead c).clocks = p.clocks := by simp [Part.tellHead_eq]
@[simp] theorem Part.tellHead_account (p : Part) (c : ClockId) : (p.tellHead c).account = p.account := by simp [Part.tellHead_eq]
@[simp] theorem Part.supplyEvent_supply (p : Part) (c : ClockId) (b : Bool) : (p.supplyEvent c b).supply = p.supply := rfl
@[simp] theorem Part.supplyEvent_clocks (p : Part) (c : ClockId) (b : Bool) : (p.supplyEvent c b).clocks = p.clocks := rfl
@[simp] theorem Part.supplyEvent_account (p : Part) (c : ClockId) (b : Bool) : (p.supplyEvent c b).account = p.account := rfl

@[simp] theorem issueDepart_supply (id : Nat) (p : Part) : (issueDepart id p).supply = p.supply :=
  (Part.market_eq_iff.mp (issueDepart_outside id p).1).1
@[simp] theorem issueDepart_clocks (id : Nat) (p : Part) : (issueDepart id p).clocks = p.clocks :=
  (Part.market_eq_iff.mp (issueDepart_outside id p).1).2.1

/-! ### What the Supply Unit's operations leave alone -/

@[simp] theorem refuseTrain_supply (l : LinkId) (id : Nat) (t : Train) (e : Cause) (p : Part) :
    (refuseTrain l id t e p).supply =
      { p.supply.freeFilling id with discard := if e = .incomplete then none else some id } := rfl
@[simp] theorem makeDeparting_supply (id : Nat) (p : Part) :
    (makeDeparting id p).supply =
      { p.supply with trolleys := p.supply.trolleys.modify id (fun t => { t with state := .departing }) } := by
  simp [makeDeparting]

/-- Every operation of the Supply Unit leaves the Clock Units and the account alone. -/
@[simp] theorem refuseTrain_steady (l : LinkId) (id : Nat) (t : Train) (e : Cause) (p : Part) :
    (refuseTrain l id t e p).clocks = p.clocks ∧ (refuseTrain l id t e p).account = p.account := ⟨rfl, rfl⟩
@[simp] theorem makeDeparting_steady (id : Nat) (p : Part) :
    (makeDeparting id p).clocks = p.clocks ∧ (makeDeparting id p).account = p.account := by simp [makeDeparting]
@[simp] theorem checkHeader_steady (l : LinkId) (m : Message) (id : Nat) (c : ClockId) (n : Nat) (p : Part) :
    (checkHeader l m id c n p).clocks = p.clocks ∧ (checkHeader l m id c n p).account = p.account := by
  unfold checkHeader; (repeat' split) <;> simp
@[simp] theorem takeTrainHeader_steady (l : LinkId) (m : Message) (p : Part) :
    (takeTrainHeader l m p).clocks = p.clocks ∧ (takeTrainHeader l m p).account = p.account := by
  unfold takeTrainHeader
  split
  · simp
  · simp only [checkHeader_steady]
    split <;> simp
@[simp] theorem admitTrain_steady (l : LinkId) (id : Nat) (t : Train) (p : Part) :
    (admitTrain l id t p).clocks = p.clocks ∧ (admitTrain l id t p).account = p.account := by
  simp only [admitTrain]; split <;> simp
@[simp] theorem afterEntry_steady (l : LinkId) (id : Nat) (p : Part) :
    (afterEntry l id p).clocks = p.clocks ∧ (afterEntry l id p).account = p.account := by
  unfold afterEntry; (repeat' split) <;> simp
@[simp] theorem takeTrolleyEntry_steady (l : LinkId) (m : Message) (p : Part) :
    (takeTrolleyEntry l m p).clocks = p.clocks ∧ (takeTrolleyEntry l m p).account = p.account := by
  simp only [takeTrolleyEntry]; (repeat' split) <;> simp
@[simp] theorem sequenceNotice_steady (c : ClockId) (id : Nat) (t : Trolley) (p : Part) :
    (sequenceNotice c id t p).clocks = p.clocks ∧ (sequenceNotice c id t p).account = p.account := by
  unfold sequenceNotice; (repeat' split) <;> simp
@[simp] theorem presentLots_steady (c : ClockId) (id : Nat) (t : Trolley) (p : Part) :
    (presentLots c id t p).clocks = p.clocks ∧ (presentLots c id t p).account = p.account := by simp [presentLots]
@[simp] theorem arrive_steady (l : LinkId) (m : Message) (c : ClockId) (id : Nat) (t : Trolley) (p : Part) :
    (arrive l m c id t p).clocks = p.clocks ∧ (arrive l m c id t p).account = p.account := by
  simp only [arrive]; split <;> simp
@[simp] theorem takeTrolleyArrived_steady (l : LinkId) (m : Message) (p : Part) :
    (takeTrolleyArrived l m p).clocks = p.clocks ∧ (takeTrolleyArrived l m p).account = p.account := by
  simp only [takeTrolleyArrived]; (repeat' split) <;> simp
@[simp] theorem withdrawAnnounced_steady (id : Nat) (t : Lot) (p : Part) :
    (withdrawAnnounced id t p).clocks = p.clocks ∧ (withdrawAnnounced id t p).account = p.account := by
  simp only [withdrawAnnounced]; split <;> simp
@[simp] theorem takeLotWithdraw_steady (l : LinkId) (m : Message) (p : Part) :
    (takeLotWithdraw l m p).clocks = p.clocks ∧ (takeLotWithdraw l m p).account = p.account := by
  simp only [takeLotWithdraw]; (repeat' split) <;> simp
@[simp] theorem withdrawIfAnnounced_steady (p : Part) (id : Nat) :
    (withdrawIfAnnounced p id).clocks = p.clocks ∧ (withdrawIfAnnounced p id).account = p.account := by
  unfold withdrawIfAnnounced; (repeat' split) <;> simp
@[simp] theorem takeTrainWithdraw_steady (l : LinkId) (m : Message) (p : Part) :
    (takeTrainWithdraw l m p).clocks = p.clocks ∧ (takeTrainWithdraw l m p).account = p.account := by
  simp only [takeTrainWithdraw]
  (repeat' split) <;> simp [foldl_reads (φ := Part.clocks), foldl_reads (φ := Part.account)]
@[simp] theorem takeTrolleyDeparted_steady (l : LinkId) (m : Message) (p : Part) :
    (takeTrolleyDeparted l m p).clocks = p.clocks ∧ (takeTrolleyDeparted l m p).account = p.account := by
  simp only [takeTrolleyDeparted]; (repeat' split) <;> simp
@[simp] theorem departIfDone_steady (c : ClockId) (p : Part) :
    (departIfDone c p).clocks = p.clocks ∧ (departIfDone c p).account = p.account := by
  unfold departIfDone; (repeat' split) <;> simp
@[simp] theorem takeLotDone_steady (c : ClockId) (i : Nat) (p : Part) :
    (takeLotDone c i p).clocks = p.clocks ∧ (takeLotDone c i p).account = p.account := by simp [takeLotDone]
@[simp] theorem lotDoneStep_steady (c : ClockId) (p : Part) :
    (lotDoneStep c p).clocks = p.clocks ∧ (lotDoneStep c p).account = p.account := by
  unfold lotDoneStep; split <;> simp
@[simp] theorem logisticsLost_steady (p : Part) :
    (logisticsLost p).clocks = p.clocks ∧ (logisticsLost p).account = p.account := by simp [logisticsLost]

/-! ### The checks of an entry (R8) -/

theorem hasRepeat_eq_false_iff (xs : List Nat) : hasRepeat xs = false ↔ xs.Nodup := by
  induction xs with
  | nil => simp [hasRepeat]
  | cons x rest ih => simp [hasRepeat, ih]

/-- An entry of a FILLING train that passes every check of R8. -/
structure Supply.EntryFits (s : Supply) (t : Train) (trolley : Nat) (es : List LotEntry) : Prop where
  entriesOk : ∀ e ∈ es, e.ok = true
  newTrolley : Table.find s.trolleys trolley = none
  newLots : ∀ e ∈ es, Table.find s.lots e.lot = none
  lotsDiffer : (es.map LotEntry.lot).Nodup
  trolleyRoom : s.trolleys.length < Config.maxTrolleys
  lotRoom : s.lots.length + es.length ≤ Config.maxLots
  queueRoom : (s.queues.get t.clock).length + (s.lots.keep (fun x => decide (x.state = .staged))).length + es.length ≤
    Config.maxQueue

theorem entryFits_of_noProblem {s : Supply} {t : Train} {trolley count : Nat} {es : List LotEntry}
    (h : entryProblem s t trolley count es = none) : s.EntryFits t trolley es := by
  unfold entryProblem at h
  repeat' split at h
  all_goals try cases h
  rename_i hform hnew hroom hqueue
  simp only [Bool.or_eq_true, Bool.not_eq_true', not_or, Bool.not_eq_false] at hform
  simp only [Bool.or_eq_true, not_or, Bool.not_eq_true, Table.has, Option.isSome_eq_false_iff, Option.isNone_iff_eq_none,
    List.any_eq_false, hasRepeat_eq_false_iff] at hnew
  simp only [Bool.or_eq_true, decide_eq_true_eq, not_or, not_le, not_lt] at hroom
  exact ⟨List.all_eq_true.mp hform.2, hnew.1.1, hnew.1.2, hnew.2, hroom.1, hroom.2, not_lt.mp hqueue⟩

/-! ### The FILLING train -/

theorem Supply.filling_mem {s : Supply} {id : Nat} {t : Train} (h : s.filling = some (id, t)) :
    (id, t) ∈ s.trains ∧ t.state = .filling := by
  have := List.mem_of_mem_head? (Option.mem_def.mpr h)
  simpa using this

theorem Supply.filling_find {s : Supply} {id : Nat} {t : Train} (hs : s.TablesOk) (h : s.filling = some (id, t)) :
    Table.find s.trains id = some t :=
  (Table.find_iff_mem hs.trainsRise id t).mpr (Supply.filling_mem h).1

/-! ### The tables of the Supply Unit under its operations -/

theorem Supply.TablesOk.freeFilling {s : Supply} (h : s.TablesOk) (id : Nat) : (s.freeFilling id).TablesOk :=
  ⟨Table.rising_del _ _ h.trainsRise, (Table.length_del_le _ _).trans h.trainsFit,
    Table.rising_keep s.trolleys (fun x : Trolley => decide (x.state ≠ .staged)) h.trolleysRise,
    (List.length_filter_le _ _).trans h.trolleysFit,
    Table.rising_keep s.lots (fun x : Lot => decide (x.state ≠ .staged)) h.lotsRise, (List.length_filter_le _ _).trans h.lotsFit⟩

/-- Records of the entries are put one after another. -/
theorem foldl_put_form (f : LotEntry → Lot) (es : List LotEntry) (t : Table Lot) (h : Table.rising t = true) :
    Table.rising (es.foldl (fun ls e => Table.put ls e.lot (f e)) t) = true ∧
    (es.foldl (fun ls e => Table.put ls e.lot (f e)) t).length ≤ t.length + es.length := by
  induction es generalizing t with
  | nil => exact ⟨h, le_refl _⟩
  | cons e rest ih =>
    obtain ⟨h1, h2⟩ := ih _ (Table.rising_put t e.lot (f e) h)
    have := Table.length_put_le t e.lot (f e)
    exact ⟨h1, by simp only [List.length_cons, List.foldl_cons] at *; omega⟩

theorem Supply.TablesOk.stageEntry {s : Supply} (h : s.TablesOk) {id trolley : Nat} {t : Train} {es : List LotEntry}
    (ht : Table.find s.trains id = some t) (he : s.EntryFits t trolley es) : (stageEntry id t trolley es s).TablesOk := by
  obtain ⟨hrise, hlen⟩ := foldl_put_form (fun e => e.staged trolley t.clock) es s.lots h.lotsRise
  refine ⟨Table.rising_put _ _ _ h.trainsRise, ?_, Table.rising_put _ _ _ h.trolleysRise,
    (Table.length_put_le _ _ _).trans he.trolleyRoom, hrise, hlen.trans he.lotRoom⟩
  exact (Table.length_put_held s.trains id _ h.trainsRise (by simp [ht])).le.trans h.trainsFit

theorem Supply.TablesOk.admitTrain {s : Supply} (h : s.TablesOk) {id : Nat} {t : Train}
    (ht : Table.find s.trains id = some t) : (s.admitTrain id t).TablesOk := by
  refine ⟨Table.rising_put _ _ _ h.trainsRise, ?_, ?_, ?_, ?_, ?_⟩
  · exact (Table.length_put_held s.trains id _ h.trainsRise (by simp [ht])).le.trans h.trainsFit
  · simpa [Supply.admitTrain] using h.trolleysRise
  · simpa [Supply.admitTrain] using h.trolleysFit
  · simpa [Supply.admitTrain] using h.lotsRise
  · simpa [Supply.admitTrain] using h.lotsFit

theorem Supply.TablesOk.depart {s : Supply} (h : s.TablesOk) (id : Nat) (t : Trolley) : (s.depart id t).TablesOk := by
  have htrains : Table.rising (s.depart id t).trains = true ∧ (s.depart id t).trains.length ≤ Config.maxTrains := by
    simp only [Supply.depart]
    split
    · exact ⟨h.trainsRise, h.trainsFit⟩
    · next r hr =>
      split
      · exact ⟨Table.rising_del _ _ h.trainsRise, (Table.length_del_le _ _).trans h.trainsFit⟩
      · exact ⟨Table.rising_put _ _ _ h.trainsRise,
          (Table.length_put_held s.trains _ _ h.trainsRise (by simp [hr])).le.trans h.trainsFit⟩
  exact ⟨htrains.1, htrains.2, Table.rising_del _ _ h.trolleysRise, (Table.length_del_le _ _).trans h.trolleysFit,
    Table.rising_foldl_del _ _ h.lotsRise, (Table.length_foldl_del_le _ _).trans h.lotsFit⟩

theorem checkHeader_tables {l : LinkId} {m : Message} {id : Nat} {c : ClockId} {n : Nat} {p : Part} (h : p.supply.TablesOk) :
    (checkHeader l m id c n p).supply.TablesOk := by
  unfold checkHeader
  split
  · exact h
  · split
    · exact h.of_keys rfl rfl rfl
    · next hroom =>
      exact ⟨Table.rising_put _ _ _ h.trainsRise, (Table.length_put_le _ _ _).trans (not_le.mp hroom), h.trolleysRise,
        h.trolleysFit, h.lotsRise, h.lotsFit⟩

theorem takeTrainHeader_tables {l : LinkId} {m : Message} {p : Part} (h : p.supply.TablesOk) :
    (takeTrainHeader l m p).supply.TablesOk := by
  unfold takeTrainHeader
  split
  · exact h
  · refine checkHeader_tables ?_
    split
    · exact h.of_keys rfl rfl rfl
    · next old t _ =>
      have h1 : (p.updSupply (fun s => { s with discard := none })).supply.TablesOk := h.of_keys rfl rfl rfl
      exact (h1.freeFilling old).of_keys rfl rfl rfl

theorem afterEntry_tables {l : LinkId} {id : Nat} {p : Part} (h : p.supply.TablesOk) : (afterEntry l id p).supply.TablesOk := by
  unfold afterEntry
  split
  · exact h
  · next t ht =>
    split
    · have := h.admitTrain ht
      simp only [admitTrain]
      split <;> simpa using this
    · exact h

theorem takeTrolleyEntry_tables {l : LinkId} {m : Message} {p : Part} (h : p.supply.TablesOk) :
    (takeTrolleyEntry l m p).supply.TablesOk := by
  simp only [takeTrolleyEntry]
  split
  · split
    · exact h
    · exact h
  · next fid t hf =>
    split
    · exact (h.freeFilling fid).of_keys rfl rfl rfl
    · split
      · exact (h.freeFilling fid).of_keys rfl rfl rfl
      · next hn => exact afterEntry_tables (h.stageEntry (Supply.filling_find h hf) (entryFits_of_noProblem hn))

@[simp] theorem sequenceNotice_tables (c : ClockId) (id : Nat) (t : Trolley) (p : Part) :
    (sequenceNotice c id t p).tables = p.tables := by
  simp only [sequenceNotice]
  split
  · rfl
  · split
    · rfl
    · rw [Part.toConsole_tables]; rfl

@[simp] theorem presentLots_tables (c : ClockId) (id : Nat) (t : Trolley) (p : Part) :
    (presentLots c id t p).tables = p.tables := by
  simp only [presentLots]
  rw [← sequenceNotice_tables c id t p]
  simp [Part.tables, Table.keys_mapAll]

@[simp] theorem makeDeparting_tables (id : Nat) (p : Part) : (makeDeparting id p).tables = p.tables := by
  simp [Part.tables, Table.keys_modify]

@[simp] theorem takeTrolleyArrived_tables (l : LinkId) (m : Message) (p : Part) :
    (takeTrolleyArrived l m p).tables = p.tables := by
  have hslot : ∀ (f : Supply → PerClock (Option Nat)), (p.updSupply (fun s => { s with slots := f s })).tables = p.tables :=
    fun _ => rfl
  simp only [takeTrolleyArrived, arrive]
  (repeat' split) <;> simp [hslot]

@[simp] theorem withdrawAnnounced_tables (id : Nat) (t : Lot) (p : Part) : (withdrawAnnounced id t p).tables = p.tables := by
  simp only [withdrawAnnounced]
  split <;> simp [Part.tables, Table.keys_modify]

@[simp] theorem withdrawIfAnnounced_tables (p : Part) (id : Nat) : (withdrawIfAnnounced p id).tables = p.tables := by
  unfold withdrawIfAnnounced; (repeat' split) <;> simp

@[simp] theorem takeLotWithdraw_tables (l : LinkId) (m : Message) (p : Part) : (takeLotWithdraw l m p).tables = p.tables := by
  simp only [takeLotWithdraw]; (repeat' split) <;> simp

theorem takeTrainWithdraw_tables {l : LinkId} {m : Message} {p : Part} (h : p.supply.TablesOk) :
    (takeTrainWithdraw l m p).supply.TablesOk := by
  simp only [takeTrainWithdraw]
  split
  · exact h
  · split
    · exact (h.freeFilling _).of_keys rfl rfl rfl
    · have hs := foldl_reads withdrawIfAnnounced_tables (p.supply.lotsOf (fieldAt m.body 0 2)) p
      simp only [Part.tables, Prod.mk.injEq] at hs
      exact h.of_keys hs.1 hs.2.1 hs.2.2.1

theorem takeTrolleyDeparted_tables {l : LinkId} {m : Message} {p : Part} (h : p.supply.TablesOk) :
    (takeTrolleyDeparted l m p).supply.TablesOk := by
  simp only [takeTrolleyDeparted]
  repeat' split
  · exact h
  · exact h
  · exact h
  · exact h
  · simpa using h.depart _ _

@[simp] theorem departIfDone_tables (c : ClockId) (p : Part) : (departIfDone c p).tables = p.tables := by
  unfold departIfDone; (repeat' split) <;> simp

@[simp] theorem lotDoneStep_tables (c : ClockId) (p : Part) : (lotDoneStep c p).tables = p.tables := by
  have hhead : ∀ q : Part, (q.tellHead c).tables = q.tables := fun q => by rw [Part.tellHead_eq]; rfl
  unfold lotDoneStep
  split
  · rfl
  · simp only [takeLotDone]
    rw [Part.tables_of_sale (Part.supplyEvent_sale _ c false), hhead, departIfDone_tables]
    rfl

theorem logisticsLost_tables {p : Part} (h : p.supply.TablesOk) : (logisticsLost p).supply.TablesOk := by
  simp only [logisticsLost, Part.updSupply_supply]
  split
  · exact h.of_keys rfl rfl rfl
  · exact (h.freeFilling _).of_keys rfl rfl rfl

end Sys2Proof.Machine
end

section
/-! O8: every step keeps the tables in form and the bindings in agreement. -/

namespace Sys2Proof.Machine

/-! ### What holds behind all that can be done with a message, a hand-over or a report holds behind taking it -/

section
variable {pre post : Part → Prop} {p : Part}

theorem takeMessage_leads {l : LinkId} {k : Kind} {f : Message → Part → Part} (hp : ∀ q, pre q → post q)
    (hl : ∀ q v, pre q → pre { q with links := v }) (hf : ∀ m q, pre q → post (f m q)) (h : pre p) : post (takeMessage l k f p) := by
  rcases takeMessage_cases l k f p with ⟨v, hv⟩ | ⟨m, v, hv⟩ <;> rw [hv]
  · exact hp _ (hl p v h)
  · exact hf m _ (hl p v h)

theorem takeFormed_leads {l : LinkId} {k : Kind} {f : Message → Part → Part} (hp : ∀ q, pre q → post q)
    (hl : ∀ q v, pre q → pre { q with links := v }) (hf : ∀ m q, pre q → post (f m q)) (h : pre p) :
    post (takeMessage l k (ifWellFormed l k f) p) := by
  refine takeMessage_leads hp hl (fun m q hq => ?_) h
  rcases ifWellFormed_cases l k f m q with hv | ⟨v, hv⟩ <;> rw [hv]
  · exact hf m q hq
  · exact hp _ (hl q v hq)

theorem onConsole_leads {l : LinkId} {f : ClockId → Part → Part} (hp : ∀ q, pre q → post q) (hf : ∀ c q, pre q → post (f c q))
    (h : pre p) : post (onConsole l f p) := by
  rcases onConsole_cases l f p with hv | ⟨c, hv⟩ <;> rw [hv]
  · exact hp p h
  · exact hf c p h

theorem takeFromAccount_leads {c : ClockId} {f : ToClock → Option (Part → Part)} (hp : ∀ q, pre q → post q)
    (hc : ∀ q ms, pre q → pre (q.updChannels c (fun h => { h with accountToClock := ms })))
    (hf : ∀ m g, f m = some g → ∀ q, pre q → post (g q)) (h : pre p) : post (takeFromAccount c f p) := by
  unfold takeFromAccount
  repeat' split
  · exact hp p h
  · exact hp p h
  · next g hg => exact hf _ g hg _ (hc p _ h)

theorem takeFromClock_leads {c : ClockId} {f : ToAccount → Option (Part → Part)} (hp : ∀ q, pre q → post q)
    (hc : ∀ q ms, pre q → pre (q.updChannels c (fun h => { h with clockToAccount := ms })))
    (hf : ∀ m g, f m = some g → ∀ q, pre q → post (g q)) (h : pre p) : post (takeFromClock c f p) := by
  unfold takeFromClock
  repeat' split
  · exact hp p h
  · exact hp p h
  · next g hg => exact hf _ g hg _ (hc p _ h)

/-- A report of the Supply Unit tells the clock what it has in hand, so that what is done with it may need to know it. -/
theorem takeFromSupply_leads {c : ClockId} {f : ToClockFromSupply → Option (Part → Part)} (hp : post p)
    (hf : ∀ m ms g, (p.channels.get c).supplyToClock = m :: ms → f m = some g →
      post (g (p.updChannels c (fun h => { h with supplyToClock := ms })))) : post (takeFromSupply c f p) := by
  unfold takeFromSupply
  split
  · exact hp
  · next m ms hm =>
    split
    · exact hp
    · next g hg => exact hf m ms g hm hg

theorem takeClockEvent_leads {c : ClockId} {f : ClockEvent → Option (Part → Part)} (hp : ∀ q, pre q → post q)
    (hc : ∀ q ms, pre q → pre (q.updChannels c (fun h => { h with clockToDisplay := ms })))
    (hf : ∀ m g, f m = some g → ∀ q, pre q → post (g q)) (h : pre p) : post (takeClockEvent c f p) := by
  unfold takeClockEvent
  repeat' split
  · exact hp p h
  · exact hp p h
  · next g hg => exact hf _ g hg _ (hc p _ h)

theorem takeReport_leads {src : ReportSource} {f : Report → Option (Part → Part)} (hp : ∀ q, pre q → post q)
    (ha : ∀ q ms, pre q → pre { q with accountReports := ms })
    (hc : ∀ c q ms, pre q → pre (q.updChannels c (fun h => { h with clockReports := ms })))
    (hf : ∀ m g, f m = some g → ∀ q, pre q → post (g q)) (h : pre p) : post (takeReport src f p) := by
  cases src with
  | account =>
    simp only [takeReport]
    repeat' split
    · exact hp p h
    · exact hp p h
    · next g hg => exact hf _ g hg _ (ha p _ h)
  | clock c =>
    simp only [takeReport]
    repeat' split
    · exact hp p h
    · exact hp p h
    · next g hg => exact hf _ g hg _ (hc c p _ h)

end

/-! ### The form of the part -/

/-- The tables of the part are in form and, where that is asked for, its bindings. -/
def Part.FormOk (asked : Prop) (p : Part) : Prop := p.supply.TablesOk ∧ p.account.FormOk asked

theorem Part.tablesOk_iff_formOk {p : Part} : p.TablesOk ↔ p.FormOk False := by
  simp [Part.tablesOk_iff, Part.FormOk, Account.FormOk]

theorem Part.tablesAndBindingsOk_iff_formOk {p : Part} : p.TablesOk ∧ p.BindingsOk ↔ p.FormOk True := by
  simp [Part.tablesOk_iff, Part.bindingsOk_iff, Part.FormOk, Account.FormOk, and_assoc]

section
variable {asked : Prop} {p q : Part}

theorem Part.FormOk.of_tables (h : p.FormOk asked) (ht : q.tables = p.tables) : q.FormOk asked := by
  simp only [Part.tables, Prod.mk.injEq] at ht
  exact ⟨h.1.of_keys ht.1 ht.2.1 ht.2.2.1, ht.2.2.2 ▸ h.2⟩

theorem Part.FormOk.of_sale (h : p.FormOk asked) (hs : q.sale = p.sale) : q.FormOk asked := h.of_tables (Part.tables_of_sale hs)

theorem Part.FormOk.of_outside (h : p.FormOk asked) (ho : q.market = p.market ∧ q.account = p.account) : q.FormOk asked :=
  h.of_sale (Part.sale_of_outside ho)

theorem Part.FormOk.of_market (h : p.FormOk asked) (hm : q.market = p.market) (ha : q.account.FormOk asked) : q.FormOk asked :=
  ⟨(Part.market_eq_iff.mp hm).1 ▸ h.1, ha⟩

theorem Part.FormOk.of_shape (h : p.FormOk asked) (hm : q.market = p.market) (ha : q.account.shape = p.account.shape) :
    q.FormOk asked := h.of_market hm (h.2.of_shape ha)

theorem Part.FormOk.of_supply (h : p.FormOk asked) (hs : q.supply.TablesOk) (ha : q.clocks = p.clocks ∧ q.account = p.account) :
    q.FormOk asked := ⟨hs, ha.2 ▸ h.2⟩

theorem Part.reset_formOk : Part.reset.FormOk asked := by
  refine ⟨⟨rfl, by decide, rfl, by decide, rfl, by decide⟩,
    ⟨rfl, by decide, rfl, by decide, fun i x hx => (by cases hx), rfl, by decide⟩, fun _ => ⟨fun i u => ?_, fun i u hu => ?_⟩⟩
  · simp [Part.reset, Account.reset, Account.boundTo, Account.deskOf, Table.find]
  · simp [Part.reset, Account.reset, Account.boundTo, Table.find] at hu

/-- The message of a link that is taken, when what is done with it keeps the form. -/
theorem Part.FormOk.message {l : LinkId} {k : Kind} {f : Message → Part → Part} (h : p.FormOk asked)
    (hf : ∀ m q, q.FormOk asked → (f m q).FormOk asked) : (takeMessage l k f p).FormOk asked :=
  takeMessage_leads (fun _ hq => hq) (fun _ _ hq => hq) hf h

theorem Part.FormOk.formed {l : LinkId} {k : Kind} {f : Message → Part → Part} (h : p.FormOk asked)
    (hf : ∀ m q, q.FormOk asked → (f m q).FormOk asked) : (takeMessage l k (ifWellFormed l k f) p).FormOk asked :=
  takeFormed_leads (fun _ hq => hq) (fun _ _ hq => hq) hf h

/-- A message of a console, when what the clock does with it keeps the keys of the tables. -/
theorem Part.FormOk.console {l : LinkId} {k : Kind} {f : Message → ClockId → Part → Part} (h : p.FormOk asked)
    (hf : ∀ m c q, (f m c q).tables = q.tables) :
    (takeMessage l k (ifWellFormed l k (fun m => onConsole l (f m))) p).FormOk asked :=
  h.formed (fun m _ hq => onConsole_leads (fun _ hq => hq) (fun c q hq => hq.of_tables (hf m c q)) hq)

/-- A hand-over of the Account Unit to a clock, when what the clock does with it keeps the keys of the tables. -/
theorem Part.FormOk.fromAccount {c : ClockId} {f : ToClock → Option (Part → Part)} (h : p.FormOk asked)
    (hf : ∀ m g, f m = some g → ∀ q, (g q).tables = q.tables) : (takeFromAccount c f p).FormOk asked :=
  takeFromAccount_leads (fun _ hq => hq) (fun _ _ hq => hq) (fun m g hg q hq => hq.of_tables (hf m g hg q)) h

theorem Part.FormOk.fromSupply {c : ClockId} {f : ToClockFromSupply → Option (Part → Part)} (h : p.FormOk asked)
    (hf : ∀ m g, f m = some g → ∀ q, (g q).tables = q.tables) : (takeFromSupply c f p).FormOk asked :=
  takeFromSupply_leads h (fun m _ g _ hg => Part.FormOk.of_tables (p := p.updChannels c _) h (hf m g hg _))

theorem Part.FormOk.fromClock {c : ClockId} {f : ToAccount → Option (Part → Part)} (h : p.FormOk asked)
    (hf : ∀ m g, f m = some g → ∀ q, q.FormOk asked → (g q).FormOk asked) : (takeFromClock c f p).FormOk asked :=
  takeFromClock_leads (fun _ hq => hq) (fun _ _ hq => hq) hf h

theorem Part.FormOk.clockEvent {c : ClockId} {f : ClockEvent → Option (Part → Part)} (h : p.FormOk asked)
    (hf : ∀ m g, f m = some g → ∀ q, (g q).market = q.market ∧ (g q).account = q.account) :
    (takeClockEvent c f p).FormOk asked :=
  takeClockEvent_leads (fun _ hq => hq) (fun _ _ hq => hq) (fun m g hg _ hq => hq.of_outside (hf m g hg _)) h

theorem Part.FormOk.ofReport {src : ReportSource} {f : Report → Option (Part → Part)} (h : p.FormOk asked)
    (hf : ∀ m g, f m = some g → ∀ q, (g q).market = q.market ∧ (g q).account = q.account) : (takeReport src f p).FormOk asked :=
  takeReport_leads (fun _ hq => hq) (fun _ _ hq => hq) (fun _ _ _ hq => hq) (fun m g hg _ hq => hq.of_outside (hf m g hg _)) h

theorem lossStep_formOk {l : LinkId} (h : p.FormOk asked) : (lossStep l p).FormOk asked := by
  unfold lossStep
  split
  · exact h
  · simp only [loseLink]
    split
    · exact h
    · next r _ =>
      generalize hq : Part.updLink _ l Link.lost = q
      have h : q.FormOk asked := hq ▸ h
      cases r with
      | logistics => exact h.of_supply (logisticsLost_tables h.1) (logisticsLost_steady q)
      | console c => exact h.of_sale (consoleLost_sale c q)
      | deskGroup => exact h.of_market (deskGroupLost_market l q) (deskGroupLost_formOk h.2)
      | settlement => exact h.of_shape (settlementLost_market q) (settlementLost_shape q)
      | display => exact h.of_outside (displayLost_outside l q)
      | supervision => exact h.of_outside (supervisionLost_outside q)

/-- Every command keeps the form of the part. -/
theorem effect_formOk (i : Instr) (h : p.FormOk asked) : (effect i p).FormOk asked := by
  cases i with
  | reset | resetPinHeldLow => exact Part.reset_formOk
  | lineActivity l => exact h.of_outside (lineActive_outside l p)
  | frameReceived l bytes => exact h.of_shape (receive_market l bytes p) (receive_shape l bytes p)
  | keepMarker l => simp only [effect]; split; exacts [h.of_outside (keepFrom_outside l p), h]
  | waitMarker l => simp only [effect]; split; exacts [h.of_outside (waitFrom_outside l p), h]
  | goMarker l => simp only [effect]; split; exacts [h.of_shape (goFrom_market l p) (goFrom_shape l p), h]
  | lossTimerExpiry l => exact lossStep_formOk h
  | keepTimerExpiry l => exact h.of_outside (keepStep_outside l p)
  | frameSent l => exact h.of_shape (transmit_market l p) (transmit_shape l p)
  | unknownKind l => exact h.of_outside (unknownStep_outside l p)
  | announce l => exact h.message (fun m q hq => hq.of_shape (takeAnnounce_market l m q) (takeAnnounce_shape l m q))
  | trainHeader l => exact h.formed (fun m q hq => hq.of_supply (takeTrainHeader_tables hq.1) (takeTrainHeader_steady l m q))
  | trolleyEntry l => exact h.formed (fun m q hq => hq.of_supply (takeTrolleyEntry_tables hq.1) (takeTrolleyEntry_steady l m q))
  | trolleyArrived l => exact h.formed (fun m q hq => hq.of_tables (takeTrolleyArrived_tables l m q))
  | lotWithdraw l => exact h.formed (fun m q hq => hq.of_tables (takeLotWithdraw_tables l m q))
  | trainWithdraw l => exact h.formed (fun m q hq => hq.of_supply (takeTrainWithdraw_tables hq.1) (takeTrainWithdraw_steady l m q))
  | trolleyDeparted l =>
    exact h.formed (fun m q hq => hq.of_supply (takeTrolleyDeparted_tables hq.1) (takeTrolleyDeparted_steady l m q))
  | slotQuery l => exact h.formed (fun m q hq => hq.of_outside (takeSlotQuery_outside l m q))
  | lotDoneReport c => exact h.of_tables (lotDoneStep_tables c p)
  | headLotPresented c =>
    refine h.fromSupply (fun m g hg q => ?_)
    cases m <;> cases hg
    exact takeHeadLot_tables c _ q
  | noPresentedHead c =>
    refine h.fromSupply (fun m g hg q => ?_)
    cases m <;> cases hg
    rfl
  | lotWithdrawn c =>
    refine h.fromSupply (fun m g hg q => ?_)
    cases m <;> cases hg
    exact Part.tables_of_sale (takeLotWithdrawn_sale c _ _ q)
  | clockConfigure l => exact h.console (fun m c q => Part.tables_of_sale (takeConfigure_sale l m c q))
  | start l => exact h.console (fun m c q => takeStart_tables l m c q)
  | holdClock l => exact h.console (fun m c q => Part.tables_of_sale (takeHold_sale l m c q))
  | resume l => exact h.console (fun m c q => Part.tables_of_sale (takeResume_sale l m c q))
  | withdrawLot l => exact h.console (fun m c q => takeWithdraw_tables l m c q)
  | strideEnd c => exact h.of_tables (strideStep_tables c p)
  | windowExpiry c => exact h.of_tables (windowStep_tables c p)
  | restartDelayEnd c => exact h.of_tables (restartStep_tables c p)
  | bid l => exact h.message (fun m q hq => hq.of_shape (takeBid_market l m q) (takeBid_shape l m q))
  | admittedBid c =>
    refine h.fromAccount (fun m g hg q => ?_)
    cases m <;> cases hg
    exact takeAdmittedBid_tables c _ q
  | placement c =>
    refine h.fromAccount (fun m g hg q => ?_)
    cases m <;> cases hg
    exact Part.tables_of_sale (takePlacement_sale c _ q)
  | cancelOrder l =>
    exact h.formed (fun m q hq => hq.of_market (boundDesk_market (takeCancelOrder_market l m) q)
      (boundDesk_formOk hq.2 (fun i u _ => hq.2.of_shape (takeCancelOrder_shape l m i u q))))
  | cancelRequest c =>
    refine h.fromAccount (fun m g hg q => ?_)
    cases m <;> cases hg
    exact Part.tables_of_sale (takeCancel_sale c _ _ _ q)
  | buyerNotice c =>
    refine h.fromAccount (fun m g hg q => ?_)
    cases m <;> cases hg
    exact Part.tables_of_sale (takeNotice_sale c _ q)
  | endRequest c =>
    refine h.fromAccount (fun m g hg q => ?_)
    cases m <;> cases hg
    exact Part.tables_of_sale (takeEndRequest_sale c _ _ q)
  | hallNoticeOpen c =>
    refine h.fromAccount (fun m g hg q => ?_)
    rcases m with _ | _ | _ | _ | _ | ⟨_ | _ | _⟩ | _ | _ <;> cases hg
    exact Part.tables_of_sale (noticeOpen_sale c q)
  | hallNoticeClosing c =>
    refine h.fromAccount (fun m g hg q => ?_)
    rcases m with _ | _ | _ | _ | _ | ⟨_ | _ | _⟩ | _ | _ <;> cases hg
    exact Part.tables_of_sale (noticeClosing_sale c q)
  | hallNoticeClosed c =>
    refine h.fromAccount (fun m g hg q => ?_)
    rcases m with _ | _ | _ | _ | _ | ⟨_ | _ | _⟩ | _ | _ <;> cases hg
    exact Part.tables_of_sale (noticeClosed_sale c q)
  | reservation c =>
    refine h.fromClock (fun m g hg q hq => ?_)
    cases m <;> cases hg
    exact hq.of_market (takeReservation_market c _ q) (takeReservation_formOk hq.2)
  | grant c =>
    refine h.fromAccount (fun m g hg q => ?_)
    cases m <;> cases hg
    exact takeGrant_tables c _ q
  | refuse c =>
    refine h.fromAccount (fun m g hg q => ?_)
    cases m <;> cases hg
    exact takeRefuse_tables c _ q
  | deliverOutcome c =>
    refine h.fromClock (fun m g hg q hq => ?_)
    cases m <;> cases hg
    · exact hq.of_outside (deliver_outside _ _ _ q)
    · exact hq.of_outside (deliverReply_outside _ _ _ q)
  | orderEnded c =>
    refine h.fromClock (fun m g hg q hq => ?_)
    cases m <;> cases hg
    exact hq.of_outside (sendOrderEnded_outside _ _ _ q)
  | activityReport c =>
    refine h.fromClock (fun m g hg q hq => ?_)
    cases m <;> cases hg
    exact hq.of_market (takeActivity_market c _ _ q) (takeActivity_formOk hq.2)
  | login l => exact h.message (fun m q hq => hq.of_market (takeLogin_market l m q) (takeLogin_formOk hq.2))
  | logout l =>
    exact h.formed (fun m q hq => hq.of_market (boundDesk_market (takeLogout_market l m) q)
      (boundDesk_formOk hq.2 (fun _ _ hu => takeLogout_formOk hq.2 (fun _ => hu))))
  | present l =>
    exact h.formed (fun m q hq => hq.of_market (boundDesk_market (takePresent_market l m) q)
      (boundDesk_formOk hq.2 (fun i u _ => hq.2.of_shape (takePresent_shape l m i u q))))
  | ageExpiry desk => exact h.of_market (ageStep_market desk p) (ageStep_formOk h.2)
  | snapshotRequest l => exact h.formed (fun m q hq => hq.of_outside (takeSnapshot_outside l m q))
  | buyerSet l => exact h.formed (fun m q hq => hq.of_market (takeBuyerSet_market l m q) (takeBuyerSet_formOk hq.2))
  | buyerRemove l => exact h.formed (fun m q hq => hq.of_market (takeBuyerRemove_market l m q) (takeBuyerRemove_formOk hq.2))
  | creditLimit l => exact h.formed (fun m q hq => hq.of_shape (takeCreditLimit_market l m q) (takeCreditLimit_shape l m q))
  | block l => exact h.formed (fun m q hq => hq.of_shape (setBlocked_market l true m q) (setBlocked_shape l true m q))
  | unblock l => exact h.formed (fun m q hq => hq.of_shape (setBlocked_market l false m q) (setBlocked_shape l false m q))
  | tariffLoad l => exact h.formed (fun m q hq => hq.of_shape (takeTariffLoad_market l m q) (takeTariffLoad_shape l m q))
  | closeInvoice l => exact h.formed (fun m q hq => hq.of_shape (takeCloseInvoice_market l m q) (takeCloseInvoice_shape l m q))
  | settled l => exact h.formed (fun m q hq => hq.of_market (takeSettled_market l m q) (takeSettled_formOk hq.2))
  | openDay l => exact h.formed (fun m q hq => hq.of_shape (takeOpenDay_market l m q) (takeOpenDay_shape l m q))
  | closeDay l => exact h.formed (fun m q hq => hq.of_shape (takeCloseDay_market l m q) (takeCloseDay_shape l m q))
  | statisticsRequest l => exact h.formed (fun m q hq => hq.of_outside (takeStatistics_outside l m q))
  | stateEvent c =>
    refine h.clockEvent (fun m g hg q => ?_)
    cases m <;> cases hg
    exact takeStateEvent_outside c _ q
  | strideEvent c =>
    refine h.clockEvent (fun m g hg q => ?_)
    cases m <;> cases hg
    exact takeStrideEvent_outside c _ q
  | awardEvent c =>
    refine h.clockEvent (fun m g hg q => ?_)
    cases m <;> cases hg
    exact takeAwardEvent_outside c _ _ q
  | divisorEvent c =>
    refine h.clockEvent (fun m g hg q => ?_)
    cases m <;> cases hg
    exact takeDivisorEvent_outside c _ _ q
  | supplyUnitEvent c => exact h.of_outside (supplyEventStep_outside c p)
  | frameTimerExpiry c => exact h.of_outside (frameTimerStep_outside c p)
  | bidCopy src =>
    refine h.ofReport (fun m g hg q => ?_)
    cases m <;> cases hg
    exact copyBid_outside _ q
  | outcomeCopy src =>
    refine h.ofReport (fun m g hg q => ?_)
    cases m <;> cases hg
    exact copyOutcome_outside _ q

end

theorem formOk_kept (asked : Prop) : Kept (Part.FormOk asked) := kept_of_effect (fun _ _ h => h) (fun i _ h => effect_formOk i h)

/-- Settles O8: the form of the tables and the agreement of the bindings are one property, which every command keeps. -/
theorem tablesAndBindingsKept : Obligations.TablesAndBindingsKept := by
  intro s t hs ht
  exact Part.tablesAndBindingsOk_iff_formOk.mpr (formOk_kept True s t (Part.tablesAndBindingsOk_iff_formOk.mp hs) ht)

end Sys2Proof.Machine
end

section
/-! The messages of logistics: what taking one gives, and the manifests (O23, O26). -/

namespace Sys2Proof.Machine

/-! ### Taking a message and answering it -/

/-- The part once the head message of a link has left its queue. -/
def Part.taking (p : Part) (l : LinkId) : Part := { p with links := p.unqueued l }

@[simp] theorem Part.taking_links (p : Part) (l : LinkId) : (p.taking l).links = p.unqueued l := rfl
@[simp] theorem Part.taking_supply (p : Part) (l : LinkId) : (p.taking l).supply = p.supply := rfl
@[simp] theorem Part.taking_channels (p : Part) (l : LinkId) : (p.taking l).channels = p.channels := rfl
@[simp] theorem Part.taking_lot (p : Part) (l : LinkId) (i : Nat) : (p.taking l).lot i = p.lot i := rfl
@[simp] theorem Part.taking_trolley (p : Part) (l : LinkId) (i : Nat) : (p.taking l).trolley i = p.trolley i := rfl

theorem State.Takes.up {s : State} {l : LinkId} {r : Role} {k : Kind} {raw : List Byte} (h : s.Takes l r k raw) :
    (s.part.links.get l).state = .up := h.2.1

section
variable {s : State} {l : LinkId} {r : Role} {k : Kind} {raw : List Byte} {f : Message → Part → Part}

/-- What its unit makes of a message taken is what the command leaves. -/
theorem State.Takes.gives (h : s.Takes l r k raw) {q : Part} (hf : f (parse raw) (s.part.taking l) = q) :
    run s (takeMessage l k (ifWellFormed l k f)) = .next (s.after q) :=
  hf ▸ h.run_formed f

/-- A message that its unit refuses. -/
theorem State.Takes.refused (h : s.Takes l r k raw) {cause : Cause}
    (hf : f (parse raw) (s.part.taking l) = (s.part.taking l).refuseMsg l (parse raw) cause) :
    run s (takeMessage l k (ifWellFormed l k f)) = .next (s.refusing l raw cause) :=
  h.gives (hf.trans (Part.refuseMsg_taken h.up _ _))

end

/-- An urgent message for the link whose message has just been taken. -/
theorem Part.postUrgent_taken {p : Part} {l : LinkId} (hu : (p.links.get l).state = .up) (q : Part) (hq : q.links = p.unqueued l)
    (o : OutMsg) : q.postUrgent l o = { q with links := p.answeredBy l o } := by
  simp only [Part.postUrgent, Part.updLink, hq, Part.unqueued, Part.answeredBy, PerLink.upd_upd]
  congr 1
  apply PerLink.upd_congr
  simp [hu]

/-! ### TRAIN HEADER (O23) -/

section
variable {l : LinkId} {m : Message} {id n : Nat} {c : ClockId} {p : Part}

/-- A FILLING train refused whole by the message taken. -/
theorem refuseTrain_taken {q : Part} (hu : (p.links.get l).state = .up) (hq : q.links = p.unqueued l) (t : Train) (cause : Cause) :
    refuseTrain l id t cause q =
      { q with links := p.answeredBy l ⟨t.tag, .trainRefused id cause⟩,
               supply := { q.supply.freeFilling id with discard := if cause = .incomplete then none else some id } } := by
  simp only [refuseTrain]
  rw [Part.postUrgent_taken hu _ (by exact hq)]
  rfl

/-- A header of a train id in use. -/
theorem checkHeader_held (h : p.supply.trains.has id = true) : checkHeader l m id c n p = p.refuseMsg l m .malformed := by
  simp [checkHeader, h]

/-- A header with the train table full. -/
theorem checkHeader_full (h : p.supply.trains.has id = false) (hl : 24 ≤ p.supply.trains.length) :
    checkHeader l m id c n p = (p.updSupply (fun s => { s with discard := some id })).reply l m (.trainRefused id .noRoom) := by
  simp [checkHeader, h, Config.maxTrains, hl]

/-- A header that begins its train. -/
theorem checkHeader_begins (h : p.supply.trains.has id = false) (hl : p.supply.trains.length < 24) :
    checkHeader l m id c n p = p.updSupply (fun s => { s with
      trains := s.trains.put id
        { clock := c, stated := n, taken := 0, state := .filling, live := 0, tag := m.tag, clamped := 0 } }) := by
  simp [checkHeader, h, Config.maxTrains, not_le.mpr hl]

/-- A well formed header with no train FILLING. -/
theorem takeTrainHeader_idle (hr : readTrainHeader m.body = some (id, c, n)) (hf : p.supply.filling = none) :
    takeTrainHeader l m p = checkHeader l m id c n (p.updSupply (fun s => { s with discard := none })) := by
  have hf' : (p.updSupply (fun s => { s with discard := none })).supply.filling = none := hf
  simp only [takeTrainHeader, hr]
  rw [hf']

/-- A well formed header with a train FILLING, which is refused first. -/
theorem takeTrainHeader_filling {old : Nat} {t : Train} (hr : readTrainHeader m.body = some (id, c, n))
    (hf : p.supply.filling = some (old, t)) :
    takeTrainHeader l m p =
      checkHeader l m id c n (refuseTrain l old t .incomplete (p.updSupply (fun s => { s with discard := none }))) := by
  have hf' : (p.updSupply (fun s => { s with discard := none })).supply.filling = some (old, t) := hf
  simp only [takeTrainHeader, hr]
  rw [hf']

end

/-- Settles O23: the header's form, then the FILLING train it ends, then the checks of the train it begins. -/
theorem trainHeaderTaken : Obligations.TrainHeaderTaken := by
  intro l raw s h m cleared fresh
  have hu := h.up
  refine ⟨fun hr => ?malformed, fun id c n hr hf => ⟨fun hheld => ?held, fun hfree hfull => ?full, fun hfree hroom => ?begins⟩,
    fun id c n old t hr hf hfree hroom => ?incomplete⟩
  case malformed => exact h.refused (by unfold takeTrainHeader; rw [hr])
  case held =>
    exact h.gives (Eq.trans (takeTrainHeader_idle hr hf) (Eq.trans (checkHeader_held hheld) (Part.reply_taken hu rfl _ _)))
  case full =>
    exact h.gives (Eq.trans (takeTrainHeader_idle hr hf) (Eq.trans (checkHeader_full hfree hfull) (Part.reply_taken hu rfl _ _)))
  case begins => exact h.gives (Eq.trans (takeTrainHeader_idle hr hf) (checkHeader_begins hfree hroom))
  case incomplete =>
    refine h.gives (Eq.trans (takeTrainHeader_filling hr hf) ?_)
    rw [refuseTrain_taken hu rfl]
    exact checkHeader_begins hfree hroom

/-! ### TROLLEY ENTRY refused (O26) -/

section
variable {l : LinkId} {m : Message} {id : Nat} {t : Train} {p : Part}

/-- An entry with no train FILLING. -/
theorem takeTrolleyEntry_idle (hf : p.supply.filling = none) :
    takeTrolleyEntry l m p =
      if p.supply.discard = some (fieldAt m.body 0 2) then p else p.refuseMsg l m .malformed := by
  simp only [takeTrolleyEntry]; rw [hf]

/-- An entry that names another train than the FILLING one. -/
theorem takeTrolleyEntry_other (hf : p.supply.filling = some (id, t)) (hid : fieldAt m.body 0 2 ≠ id) :
    takeTrolleyEntry l m p = refuseTrain l id t .malformed p := by
  simp only [takeTrolleyEntry]; rw [hf]; simp [Ne.symm hid]

/-- An entry of the FILLING train that fails a check. -/
theorem takeTrolleyEntry_failed {cause : Cause} (hf : p.supply.filling = some (id, t)) (hid : fieldAt m.body 0 2 = id)
    (hp : entryProblem p.supply t (fieldAt m.body 2 2) (fieldAt m.body 4 1) (readLotEntries m.body) = some cause) :
    takeTrolleyEntry l m p = refuseTrain l id t cause p := by
  simp only [takeTrolleyEntry]; rw [hf]; simp [hid, hp]

/-- An entry of the FILLING train that passes every check. -/
theorem takeTrolleyEntry_staged (hf : p.supply.filling = some (id, t)) (hid : fieldAt m.body 0 2 = id)
    (hp : entryProblem p.supply t (fieldAt m.body 2 2) (fieldAt m.body 4 1) (readLotEntries m.body) = none) :
    takeTrolleyEntry l m p =
      afterEntry l id (p.updSupply (stageEntry id t (fieldAt m.body 2 2) (readLotEntries m.body))) := by
  simp only [takeTrolleyEntry]; rw [hf]; simp [hid, hp]

/-- An entry is refused MALFORMED or for want of room, and not as INCOMPLETE. -/
theorem entryProblem_ne_incomplete {s : Supply} {trolley count : Nat} {es : List LotEntry} :
    entryProblem s t trolley count es ≠ some .incomplete := by
  unfold entryProblem; (repeat' split) <;> simp

end

/-- Settles O26: an entry is judged by the FILLING train it must name, or else by the discard train id. -/
theorem trainRefusedWhole : Obligations.TrainRefusedWhole := by
  intro l raw s h m whole
  have hu := h.up
  refine ⟨fun id t cause hf hid hp => ?failed, fun id t hf hid => ?other, fun hf hd => ?discarded, fun hf hd => ?none⟩
  case failed =>
    refine h.gives ?_
    have hc : cause ≠ .incomplete := fun hc => entryProblem_ne_incomplete (hc ▸ hp)
    rw [takeTrolleyEntry_failed (p := s.part.taking l) hf hid hp, refuseTrain_taken hu rfl]
    rw [if_neg hc]; rfl
  case other =>
    refine h.gives ?_
    rw [takeTrolleyEntry_other (p := s.part.taking l) hf hid, refuseTrain_taken hu rfl]
    rfl
  case discarded => exact h.gives ((takeTrolleyEntry_idle (p := s.part.taking l) hf).trans (if_pos hd))
  case none => exact h.refused ((takeTrolleyEntry_idle (p := s.part.taking l) hf).trans (if_neg hd))

end Sys2Proof.Machine
end

section
/-! TROLLEY ENTRY taken: the checks of an entry, the records it stages, and staging (O24). -/

namespace Sys2Proof.Machine

/-! ### The checks of an entry (R8) -/

/-- An entry whose values are not all in range. -/
theorem LotEntry.ok_eq_false_iff (e : LotEntry) :
    e.ok = false ↔ e.lot = 0 ∨ 15 < e.cls ∨ e.units < 1 ∨ 9999 < e.units ∨ e.stems < 1 ∨ 1000 < e.stems ∨ e.minPrice < 1 ∨
      9999999 < e.minPrice := by
  rw [← Bool.not_eq_true]
  simp only [LotEntry.ok, Bool.and_eq_true, decide_eq_true_eq, not_and_or, not_le, ne_eq, not_not, or_assoc]
  rfl

section
variable {v : Supply} {t : Train} {trolley count : Nat} {es : List LotEntry}

/-- A value out of range, or an id that is known or comes twice. -/
theorem entryProblem_malformed
    (h : (trolley = 0 ∨ count < 1 ∨ 4 < count ∨ ∃ e ∈ es, e.ok = false) ∨ v.trolleys.has trolley = true ∨
      (∃ e ∈ es, v.lots.has e.lot = true) ∨ ¬ (es.map LotEntry.lot).Nodup) :
    entryProblem v t trolley count es = some .malformed := by
  unfold entryProblem
  split
  · rfl
  · next hform =>
    rw [if_pos]
    rcases h with h | h
    · refine absurd ?_ hform
      simpa [or_assoc] using h
    · simpa [or_assoc, ← hasRepeat_eq_false_iff] using h

/-- Values in range and ids that are new: the room decides. -/
theorem entryProblem_room (hform : ¬ (trolley = 0 ∨ count < 1 ∨ 4 < count ∨ ∃ e ∈ es, e.ok = false))
    (hnew : ¬ (v.trolleys.has trolley = true ∨ (∃ e ∈ es, v.lots.has e.lot = true) ∨ ¬ (es.map LotEntry.lot).Nodup)) :
    entryProblem v t trolley count es =
      if 160 ≤ v.trolleys.length ∨ 384 < v.lots.length + es.length ∨
        128 < (v.queues.get t.clock).length + (v.lots.filter (fun x => decide (x.2.state = .staged))).length + es.length
      then some .noRoom else none := by
  unfold entryProblem
  rw [if_neg, if_neg]
  · simp only [Bool.or_eq_true, decide_eq_true_eq, ← ite_or, or_assoc]
    rfl
  · simpa [or_assoc, ← hasRepeat_eq_false_iff] using hnew
  · simpa [or_assoc] using hform

end

/-! ### The record an entry stages (R8, R68) -/

theorem LotEntry.purchase_eq {e : LotEntry} (h : e.ok = true) :
    e.purchase = if e.minPurchase = 0 then 1 else if e.units < e.minPurchase then e.units else e.minPurchase := by
  have hunits : ¬ e.units < 1 := fun hu => by simp [(e.ok_eq_false_iff).mpr (.inr (.inr (.inl hu)))] at h
  unfold LotEntry.purchase
  split_ifs <;> omega

theorem LotEntry.startPrice_eq {e : LotEntry} (h : e.ok = true) :
    e.startPrice = if e.suggested < e.minPrice then e.minPrice else if 9999999 < e.suggested then 9999999 else e.suggested := by
  have hprice : ¬ 9999999 < e.minPrice := fun hu => by simp [(e.ok_eq_false_iff).mpr (by simp [hu])] at h
  simp only [LotEntry.startPrice, Config.maxPrice]
  split_ifs <;> omega

/-! ### Staging (R8) -/

/-- What follows the staging of an entry is read from the train's record. -/
theorem afterEntry_eq {l : LinkId} {id : Nat} {t : Train} {p : Part} (h : p.supply.trains.find id = some t) :
    afterEntry l id p = if t.taken = t.stated then admitTrain l id t p else p := by
  simp [afterEntry, h]

/-- The train's record once an entry has been staged. -/
theorem stageEntry_find (id : Nat) (t : Train) (trolley : Nat) (es : List LotEntry) (v : Supply) :
    (stageEntry id t trolley es v).trains.find id =
      some { t with taken := t.taken + 1, clamped := t.clamped + (es.filter (fun e => e.clamps)).length } :=
  Table.find_put_self _ _ _

/-- Settles O24: the checks in their order, the clamped record, and the staging of an entry that is not the last. -/
theorem trolleyEntryTaken : Obligations.TrolleyEntryTaken := by
  refine ⟨?checks, fun e trolley c h => ?record, ?staged⟩
  case checks =>
    intro v t trolley count es bad known full
    have hbad : bad ↔ (trolley = 0 ∨ count < 1 ∨ 4 < count ∨ ∃ e ∈ es, e.ok = false) := by
      simp only [bad, LotEntry.ok_eq_false_iff]
    refine ⟨fun h => entryProblem_malformed (h.imp_left hbad.mp), fun hb hk hfull => ?_, fun hb hk hroom => ?_⟩
    · exact (entryProblem_room (mt hbad.mpr hb) hk).trans (if_pos hfull)
    · exact (entryProblem_room (mt hbad.mpr hb) hk).trans (if_neg hroom)
  case record =>
    unfold LotEntry.staged
    rw [LotEntry.purchase_eq h, LotEntry.startPrice_eq h]
  case staged =>
    intro l raw id t s h hf hid trolley es hp hmore
    refine h.gives (Eq.trans (takeTrolleyEntry_staged hf hid hp) ?_)
    exact Eq.trans (afterEntry_eq (stageEntry_find id t trolley es s.part.supply)) (if_neg hmore)

end Sys2Proof.Machine
end

section
/-! The slot: SLOT QUERY, TROLLEY DEPARTED (O29) and the lot done report (O30). -/

namespace Sys2Proof.Machine

/-! ### Clock numbers -/

theorem clockOf_eq_none_iff (n : Nat) : clockOf n = none ↔ n < 1 ∨ 4 < n := by
  match n with
  | 0 => simp [clockOf]
  | 1 => simp [clockOf]
  | 2 => simp [clockOf]
  | 3 => simp [clockOf]
  | 4 => simp [clockOf]
  | n + 5 => simp [clockOf]

/-! ### Who serves a role while a message is taken and answered -/

theorem Part.linkOf_unqueued {p q : Part} {l : LinkId} (hq : q.links = p.unqueued l) (r : Role) : q.linkOf r = p.linkOf r :=
  Part.linkOf_upd hq Link.leave_state Link.leave_role r

theorem Part.linkOf_answeredBy {p q : Part} {l : LinkId} {m : OutMsg} (hq : q.links = p.answeredBy l m) (r : Role) :
    q.linkOf r = p.linkOf r :=
  Part.linkOf_upd hq (fun k => by simp) (fun k => by simp) r

/-! ### DEPART ORDER (R19, R21, R22) -/

/-- The DEPART ORDER of a trolley, when the link that serves logistics is that of another part `t`. -/
theorem issueDepart_eq {p t : Part} {id : Nat} {x : Trolley} (hx : p.trolley id = some x)
    (hl : p.linkOf .logistics = t.linkOf .logistics) :
    issueDepart id p = { p with links := t.roleTold p.links .logistics [.departOrder x.clock id x.picks] } := by
  simp only [issueDepart, hx]
  exact Part.postRole_eq hl _

/-- A trolley becomes DEPARTING. -/
theorem makeDeparting_eq {p t : Part} {id : Nat} {x : Trolley} (hx : p.trolley id = some x)
    (hl : p.linkOf .logistics = t.linkOf .logistics) :
    makeDeparting id p =
      { p with links := t.roleTold p.links .logistics [.departOrder x.clock id x.picks],
               supply := { p.supply with trolleys := p.supply.trolleys.modify id (fun y => { y with state := .departing }) } } := by
  have hx' : (p.updTrolley id (fun y => { y with state := .departing })).trolley id = some { x with state := .departing } := by
    have := Table.find_modify_self p.supply.trolleys id (fun y => { y with state := .departing })
    rw [show Table.find p.supply.trolleys id = some x from hx] at this
    exact this
  exact issueDepart_eq (x := { x with state := .departing }) hx' hl

/-! ### SLOT QUERY (R22) -/

/-- A query of an empty slot. -/
theorem takeSlotQuery_empty {l : LinkId} {m : Message} {p : Part} {c : ClockId} (hc : clockNumber c = fieldAt m.body 0 1)
    (hs : p.supply.slots.get c = none) :
    takeSlotQuery l m p = p.reply l m (.slotStatus c 0 none 0 (p.supply.queues.get c).length) := by
  simp [takeSlotQuery, ← hc, hs]

/-- A query of a slot with a trolley in it. -/
theorem takeSlotQuery_held {l : LinkId} {m : Message} {p : Part} {c : ClockId} {id : Nat} {t : Trolley}
    (hc : clockNumber c = fieldAt m.body 0 1) (hs : p.supply.slots.get c = some id) (ht : p.trolley id = some t) :
    takeSlotQuery l m p =
      let q := p.reply l m (.slotStatus c id (some t.state) (p.notReportedDone c t.lots).length (p.supply.queues.get c).length)
      if t.state = .departing then issueDepart id q else q := by
  simp only [takeSlotQuery, ← hc, clockOf_clockNumber]
  rw [hs]
  simp [ht]

/-! ### TROLLEY DEPARTED (R20) -/

/-- The record of a departed trolley's train: one trolley fewer is live, and the last one frees it. -/
theorem Supply.depart_train {s : Supply} {id : Nat} {t : Trolley} {r : Train} (h : s.trains.find t.train = some r) :
    (s.depart id t).trains.find t.train = if r.live ≤ 1 then none else some { r with live := r.live - 1 } := by
  simp only [Supply.depart, h]
  split
  · exact Table.find_del_self _ _
  · exact Table.find_put_self _ _ _

/-- The other trains are as they were. -/
theorem Supply.depart_train_ne {s : Supply} {id i : Nat} {t : Trolley} (h : i ≠ t.train) :
    (s.depart id t).trains.find i = s.trains.find i := by
  simp only [Supply.depart]
  split
  · rfl
  · split
    · rw [Table.find_del, if_neg h]
    · exact Table.find_put_ne _ _ h

theorem takeTrolleyDeparted_departing {l : LinkId} {m : Message} {p : Part} {t : Trolley}
    (ht : p.trolley (fieldAt m.body 0 2) = some t) (hs : t.state = .departing) :
    takeTrolleyDeparted l m p =
      ((p.updSupply (fun s => s.depart (fieldAt m.body 0 2) t)).reply l m (.ack .plain)).tellHead t.clock := by
  simp [takeTrolleyDeparted, ht, hs]

/-- Settles O29: the query counts the lots not reported done; a departure frees the records of a DEPARTING trolley. -/
theorem slotQueriedAndLeft : Obligations.SlotQueriedAndLeft := by
  refine ⟨?query, ?departed⟩
  case query =>
    intro l raw s h place
    have hu := h.up
    refine ⟨fun hp => ?_, ?_⟩
    · exact h.refused (by simp only [takeSlotQuery]; rw [(clockOf_eq_none_iff place).mpr hp])
    intro c hc queued
    refine ⟨fun hs => ?_, ?_⟩
    · exact h.gives (Eq.trans (takeSlotQuery_empty hc hs) (Part.reply_taken hu rfl _ _))
    · intro id t hs ht inFlight left
      have hleft : left = (s.part.notReportedDone c t.lots).length := by
        simp [left, inFlight, Part.notReportedDone]
      refine ⟨h.gives (Eq.trans (takeSlotQuery_held hc hs ht) ?_), fun ⟨i, hi, hf⟩ => hleft ▸ Part.notReportedDone_pos hi hf⟩
      rw [hleft]
      simp only [Part.reply_taken (q := s.part.taking l) hu rfl]
      split
      · refine Eq.trans (issueDepart_eq ht (Part.linkOf_answeredBy rfl _)) ?_
        rfl
      · rw [Part.roleTold_nil]
        rfl
  case departed =>
    intro l raw s h id
    have hu := h.up
    refine ⟨fun ht => ?_, fun t ht => ⟨fun hst => ?_, fun hst => ?_, fun hst => ?_⟩⟩
    · exact h.refused (by simp [takeTrolleyDeparted, show s.part.trolley (fieldAt (parse raw).body 0 2) = none from ht])
    · exact h.refused (by simp [takeTrolleyDeparted, show s.part.trolley (fieldAt (parse raw).body 0 2) = some t from ht, hst])
    · refine h.refused ?_
      rcases hst with hst | hst <;>
        simp [takeTrolleyDeparted, show s.part.trolley (fieldAt (parse raw).body 0 2) = some t from ht, hst]
    · refine ⟨s.part.supply.depart id t, h.gives (Eq.trans (takeTrolleyDeparted_departing ht hst) ?_), rfl, rfl, rfl, rfl,
        fun i => Table.find_foldl_del _ _ _, fun i hi => Supply.depart_train_ne hi, fun r hr => Supply.depart_train hr⟩
      rw [Part.reply_taken hu rfl, Part.tellHead_eq]
      rfl

/-! ### The lot done report (R15) -/

/-- With no trolley in the slot nothing departs. -/
theorem departIfDone_empty {c : ClockId} {p : Part} (h : p.supply.slots.get c = none) : departIfDone c p = p := by
  simp [departIfDone, h]

theorem departIfDone_held {c : ClockId} {p : Part} {id : Nat} {t : Trolley} (h : p.supply.slots.get c = some id)
    (ht : p.trolley id = some t) :
    departIfDone c p = if t.state = .presented ∧ p.notDone t.lots = [] then makeDeparting id p else p := by
  simp [departIfDone, h, ht]

/-- The clock is told the head of its queue, and the Display Unit the next lot. -/
theorem Part.tellHead_supplyEvent (p : Part) (c : ClockId) :
    (p.tellHead c).supplyEvent c false =
      { p with channels := p.channels.upd c (fun h => { h with
          supplyToClock := h.supplyToClock ++ [p.supply.headAnswer c],
          supplyToDisplay := h.supplyToDisplay ++ [⟨p.supply.nextLot c, false⟩] }) } := by
  simp only [Part.supplyEvent, Part.nextLot_eq, Part.tellHead_supply]
  rw [Part.tellHead_eq]
  simp only [Part.supplyToDisplay, Part.tellClock, Part.updChannels, PerClock.upd_upd]

/-- Settles O30: the report leaves its queue, the slot's trolley departs when its last lot is done, the head is told. -/
theorem lotDoneReportTaken : Obligations.LotDoneReportTaken := by
  intro c s hpin
  have hrun : exec (.lotDoneReport c) s = .next (s.after (lotDoneStep c s.part)) := run_high hpin _
  refine ⟨fun h => by rw [hrun, lotDoneStep, h]; rfl, ?_⟩
  intro lot rest h left becomes
  let taken : Part := { s.part with
    supply := left, channels := s.part.channels.upd c (fun h => { h with clockToSupply := rest }) }
  have hstep : lotDoneStep c s.part = ((departIfDone c taken).tellHead c).supplyEvent c false := by
    simp only [lotDoneStep, h]; rfl
  have hbecomes : ∀ v orders, departIfDone c taken =
      { taken with links := s.part.roleTold s.part.links .logistics orders, supply := v } → becomes v orders := by
    intro v orders hd
    show exec (.lotDoneReport c) s = _
    rw [hrun, hstep, hd, Part.tellHead_supplyEvent]
    simp only [taken, PerClock.upd_upd]
  have hstays : departIfDone c taken = taken → becomes left [] := fun hd => hbecomes left [] (by rw [hd, Part.roleTold_nil])
  refine ⟨fun hs => hstays (departIfDone_empty hs), fun i t hs ht => ⟨fun hp hn => hbecomes _ _ ?_, fun hp => hstays ?_⟩⟩
  · refine Eq.trans (departIfDone_held (p := taken) hs ht) ?_
    rw [if_pos ⟨hp, hn⟩]
    exact makeDeparting_eq (p := taken) (t := s.part) ht rfl
  · exact Eq.trans (departIfDone_held (p := taken) hs ht) (if_neg (not_and_or.mpr hp))

end Sys2Proof.Machine
end

section
/-! TROLLEY ARRIVED (O27). -/

namespace Sys2Proof.Machine

/-! ### An answer on a link that other messages have been placed on -/

theorem Link.foldl_putUrgent_state (bs : List OutBody) (k : Link) :
    (bs.foldl (fun y b => y.putUrgent ⟨none, b⟩) k).state = k.state := by
  induction bs generalizing k with
  | nil => rfl
  | cons b rest ih => rw [List.foldl_cons, ih, Link.putUrgent_state]

/-- Messages for a role leave the state of every link. -/
theorem Part.roleTold_state (p : Part) (links : PerLink Link) (r : Role) (bs : List OutBody) (l : LinkId) :
    ((p.roleTold links r bs).get l).state = (links.get l).state := by
  unfold Part.roleTold
  split
  · rfl
  · rw [PerLink.get_upd]
    split
    · exact Link.foldl_putUrgent_state bs _
    · rfl

/-- The link whose message has been taken stays UP. -/
theorem Part.unqueued_state (p : Part) (l : LinkId) : ((p.unqueued l).get l).state = (p.links.get l).state := by
  simp [Part.unqueued]

/-- An answer on a link that is UP. -/
theorem Part.reply_up {p : Part} {l : LinkId} (h : (p.links.get l).state = .up) (m : Message) (b : OutBody) :
    p.reply l m b = { p with links := p.links.upd l (fun k => k.putUrgent ⟨m.tag, b⟩) } := by
  simp only [Part.reply, Part.postUrgent, Part.updLink]
  congr 1
  apply PerLink.upd_congr
  simp [h]

/-- Two changes of one record are one change. -/
theorem Table.modify_modify {α : Type} (t : Table α) (k : Nat) (f g : α → α) :
    Table.modify (Table.modify t k f) k g = Table.modify t k (fun a => g (f a)) := by
  simp only [Table.modify, List.map_map]
  apply List.map_congr_left
  intro e _
  by_cases h : e.1 = k <;> simp [h]

/-! ### The queue when a trolley is presented (R14) -/

/-- Whether a lot of another trolley heads a queue. -/
def Trolley.passes (t : Trolley) (queue : List Nat) : Bool := (queue.head?.map (fun h => !t.lots.contains h)).getD false

/-- R14: the queue once the trolley's lots have been brought to its head. -/
def Trolley.brings (t : Trolley) (queue : List Nat) : List Nat :=
  if t.passes queue then moveToHead t.lots queue else queue

/-- With no lot in the queue, or one of its own at the head, a trolley passes none. -/
theorem sequenceNotice_stays {p : Part} {c : ClockId} {t : Trolley} (id : Nat) (h : t.passes (p.supply.queues.get c) = false) :
    sequenceNotice c id t p = p := by
  unfold Trolley.passes at h
  unfold sequenceNotice
  cases hh : (p.supply.queues.get c).head? with
  | none => rfl
  | some i =>
    rw [hh] at h
    exact if_pos (by simpa using h)

/-- A trolley that passes another at the head of the queue. -/
theorem sequenceNotice_passes {p : Part} {c : ClockId} {t : Trolley} (id : Nat) (h : t.passes (p.supply.queues.get c) = true) :
    sequenceNotice c id t p =
      (p.updSupply (fun s => { s with queues := s.queues.upd c (moveToHead t.lots) })).toConsole c
        (.sequenceNotice c id ((p.supply.queues.get c).filter (fun i => t.lots.contains i)).length
          ((((p.supply.queues.get c).head?.bind p.lot).map Lot.trolley).getD 0)) := by
  unfold Trolley.passes at h
  unfold sequenceNotice
  cases hh : (p.supply.queues.get c).head? with
  | none => rw [hh] at h; simp at h
  | some i =>
    rw [hh] at h
    refine Eq.trans (if_neg (by simpa using h)) ?_
    cases hi : p.lot i <;> simp [hi]

/-- SEQUENCE NOTICE goes out, and the queue is changed, exactly where a lot of another trolley heads the queue. -/
theorem sequenceNotice_eq {p q : Part} {c : ClockId} (id : Nat) (t : Trolley)
    (hl : p.linkOf (.console c) = q.linkOf (.console c)) :
    let queue := p.supply.queues.get c
    sequenceNotice c id t p = { p with
      links := q.consoleTold p.links c (if t.passes queue then
        [.sequenceNotice c id (queue.filter (fun i => t.lots.contains i)).length
          (((queue.head?.bind p.lot).map Lot.trolley).getD 0)] else []),
      supply := { p.supply with queues := p.supply.queues.upd c t.brings } } := by
  intro queue
  cases h : t.passes queue with
  | false =>
    have hq : p.supply.queues.upd c t.brings = p.supply.queues :=
      PerClock.upd_eq_self _ _ _ ((if_neg (by simpa using h) : t.brings queue = queue))
    rw [sequenceNotice_stays id h, hq, if_neg Bool.false_ne_true, Part.consoleTold_nil]
  | true =>
    have hq : p.supply.queues.upd c t.brings = p.supply.queues.upd c (moveToHead t.lots) :=
      PerClock.upd_congr _ _ _ _ ((if_pos h : t.brings queue = _))
    rw [sequenceNotice_passes id h, hq]
    refine Eq.trans (Part.toConsole_eq (t := q) ?_ _) ?_
    · exact hl
    · rfl

/-! ### The checks of TROLLEY ARRIVED (R13) -/

section
variable {l : LinkId} {m : Message} {p : Part} {c : ClockId} {t : Trolley}

/-- Past the values of R174 the trolley named is judged. -/
theorem takeTrolleyArrived_judged (hid : fieldAt m.body 0 2 ≠ 0) (hc : clockOf (fieldAt m.body 2 1) = some c)
    (ht : p.trolley (fieldAt m.body 0 2) = some t) :
    takeTrolleyArrived l m p =
      if t.state = .staged then p.refuseMsg l m .unknownTrolley
      else if t.clock ≠ c then p.refuseMsg l m .wrongClock
      else if t.state ≠ .announced then p.refuseMsg l m .busy
      else if (p.supply.slots.get c).isSome then p.refuseMsg l m .occupied
      else arrive l m c (fieldAt m.body 0 2) t p := by
  simp [takeTrolleyArrived, hc, hid, ht]

/-- An arrival that passes the checks. -/
theorem takeTrolleyArrived_arrives (hid : fieldAt m.body 0 2 ≠ 0) (hc : clockOf (fieldAt m.body 2 1) = some c)
    (ht : p.trolley (fieldAt m.body 0 2) = some t) (hs : t.state = .announced) (hw : t.clock = c)
    (ho : p.supply.slots.get c = none) :
    takeTrolleyArrived l m p = arrive l m c (fieldAt m.body 0 2) t p := by
  rw [takeTrolleyArrived_judged hid hc ht, if_neg (by simp [hs]), if_neg (not_not.mpr hw), if_neg (by simp [hs]),
    if_neg (by simp [ho])]

/-- The trolley stands in the slot. -/
def Part.inSlot (p : Part) (c : ClockId) (id : Nat) : Part :=
  { p with supply := { p.supply with
      slots := p.supply.slots.upd c (fun _ => some id),
      trolleys := p.supply.trolleys.modify id (fun x => { x with state := .presented }) } }

theorem Part.inSlot_trolley {id : Nat} (ht : p.trolley id = some t) :
    (p.inSlot c id).trolley id = some { t with state := .presented } := by
  have := Table.find_modify_self p.supply.trolleys id (fun x => { x with state := .presented })
  rwa [show Table.find p.supply.trolleys id = some t from ht] at this

/-- A trolley with every lot done departs at once. -/
theorem arrive_departs {id : Nat} (hn : p.notDone t.lots = []) :
    arrive l m c id t p = (makeDeparting id (p.inSlot c id)).reply l m (.ack .plain) := by
  have hn' : (p.inSlot c id).notDone t.lots = [] := hn
  exact congrArg (fun q : Part => q.reply l m (.ack .plain)) (if_pos (List.isEmpty_iff.mpr hn'))

/-- A trolley with lots not done is presented. -/
theorem arrive_presents {id : Nat} (hn : p.notDone t.lots ≠ []) :
    arrive l m c id t p = (presentLots c id t (p.inSlot c id)).reply l m (.ack .plain) := by
  have hn' : (p.inSlot c id).notDone t.lots ≠ [] := hn
  exact congrArg (fun q : Part => q.reply l m (.ack .plain)) (if_neg (by rw [List.isEmpty_iff]; exact hn'))

end

/-- Settles O27: the checks in their order; then the slot is taken, and the trolley departs or its lots are presented. -/
theorem trolleyArrivedTaken : Obligations.TrolleyArrivedTaken := by
  refine ⟨?checks, ?arrives⟩
  case checks =>
    intro l raw s h id place refused
    have hjudged : ∀ {c t}, id ≠ 0 → clockOf place = some c → s.part.trolley id = some t → _ := fun h1 h2 h3 =>
      takeTrolleyArrived_judged (l := l) (m := parse raw) (p := s.part.taking l) h1 h2 h3
    refine ⟨fun hv => h.refused ?_, fun hid c hc => ⟨fun ht => h.refused ?_, fun t ht => ⟨fun hs => h.refused ?_,
      fun hs hw => h.refused ?_, fun hs hw => h.refused ?_, fun hs hw ho => h.refused ?_⟩⟩⟩
    · simp only [takeTrolleyArrived]
      split
      · rfl
      · next c hc =>
        refine if_pos (hv.resolve_right fun hp => ?_)
        rw [(clockOf_eq_none_iff _).mpr hp] at hc
        cases hc
    · simp only [takeTrolleyArrived]
      rw [hc]
      refine Eq.trans (if_neg hid) ?_
      rw [Part.taking_trolley, ht]
    · rw [hjudged hid hc ht, if_pos hs]
    · rw [hjudged hid hc ht, if_neg hs, if_pos hw]
    · rw [hjudged hid hc ht, if_neg (by rcases hs with hs | hs <;> simp [hs]), if_neg (not_not.mpr hw),
        if_pos (by rcases hs with hs | hs <;> simp [hs])]
    · rw [hjudged hid hc ht, if_neg (by simp [hs]), if_neg (not_not.mpr hw), if_neg (by simp [hs])]
      exact if_pos ho
  case arrives =>
    intro l raw c t s h id hid hc ht hs hw hslot queue own others moved passed arrived acked
    have hup : ((s.part.unqueued l).get l).state = .up := (s.part.unqueued_state l).trans h.up
    have htaken : takeTrolleyArrived l (parse raw) (s.part.taking l) = arrive l (parse raw) c id t (s.part.taking l) :=
      takeTrolleyArrived_arrives hid hc ht hs hw hslot
    refine ⟨fun hn => h.gives (htaken.trans ?_), ?_⟩
    · have hx : ((s.part.taking l).inSlot c id).trolley id = some { t with state := .presented } := Part.inSlot_trolley ht
      rw [arrive_departs (p := s.part.taking l) hn, makeDeparting_eq (t := s.part) hx (Part.linkOf_unqueued rfl _),
        Part.reply_up (Eq.trans (Part.roleTold_state _ _ _ _ _) hup)]
      simp only [Part.inSlot, Part.taking_supply, Table.modify_modify, hw]
      rfl
    · intro hn v
      refine h.gives (htaken.trans ?_)
      have hm : t.passes (s.part.supply.queues.get c) = moved := by
        simp only [moved, queue, Trolley.passes]
        cases (s.part.supply.queues.get c).head? <;> rfl
      have hb : s.part.supply.queues.upd c t.brings =
          s.part.supply.queues.upd c (fun q => if moved then own ++ others else q) :=
        PerClock.upd_congr _ _ _ _ (by rw [← hm]; rfl)
      rw [arrive_presents (p := s.part.taking l) hn]
      simp only [presentLots]
      rw [sequenceNotice_eq (q := s.part) id t (Part.linkOf_unqueued rfl _), Part.tellHead_supplyEvent,
        Part.reply_up (Eq.trans (Part.roleTold_state _ _ _ _ _) hup)]
      simp only [Part.updSupply, Part.inSlot, Part.taking_supply, hb, hm]
      rfl

end Sys2Proof.Machine
end

section
/-! The withdrawals of logistics (O28). -/

namespace Sys2Proof.Machine

/-! ### One lot withdrawn (R16) -/

/-- R16: the record of a lot that is withdrawn while ANNOUNCED. -/
def Lot.takenBack (x : Lot) : Lot :=
  if x.state = .announced then { x with state := .withdrawn, remaining := x.announced, sold := 0 } else x

theorem Lot.takenBack_takenBack (x : Lot) : x.takenBack.takenBack = x.takenBack := by
  unfold Lot.takenBack
  by_cases h : x.state = .announced <;> simp [h]

/-- The withdrawal of an ANNOUNCED lot, as one equation. -/
theorem withdrawAnnounced_eq (id : Nat) (t : Lot) (p : Part) : withdrawAnnounced id t p = p.lotWithdrawn id t := by
  simp only [withdrawAnnounced, Part.supplyEvent, Part.nextLot_eq, Part.lotWithdrawn]
  by_cases h : (p.supply.queues.get t.clock).head? = some id
  · simp only [h, decide_true, if_true, Part.tellClock, Part.supplyToDisplay, Part.updChannels, PerClock.upd_upd]
    rfl
  · simp only [h, decide_false, if_false, Part.supplyToDisplay, Part.updChannels]
    rfl

/-- The lot's record and no other is changed. -/
theorem Part.lotWithdrawn_lot {p : Part} {id : Nat} {t : Lot} (h : p.lot id = some t) (hs : t.state = .announced) (i : Nat) :
    (p.lotWithdrawn id t).lot i = if i = id then (p.lot i).map Lot.takenBack else p.lot i := by
  have hl : (p.lotWithdrawn id t).lot i = Table.find
      (Table.modify p.supply.lots id (fun r => { r with state := .withdrawn, remaining := r.announced, sold := 0 })) i := rfl
  rw [hl, Table.find_modify]
  by_cases hi : i = id
  · subst hi
    rw [if_pos rfl, if_pos rfl, show Table.find p.supply.lots i = some t from h, h]
    simp [Lot.takenBack, hs]
  · rw [if_neg hi, if_neg hi]
    rfl

/-- The lot leaves its queue, and nothing is added to any. -/
theorem Part.lotWithdrawn_queue (p : Part) (id : Nat) (t : Lot) (c : ClockId) :
    (p.lotWithdrawn id t).supply.queues.get c =
      if c = t.clock then (p.supply.queues.get c).filter (fun i => decide (i ≠ id)) else p.supply.queues.get c :=
  PerClock.get_upd _ _ _ _

/-! ### One lot of a withdrawn train (R17) -/

theorem withdrawIfAnnounced_eq (p : Part) (id : Nat) :
    withdrawIfAnnounced p id = match p.lot id with
      | none => p
      | some x => if x.state = .announced then p.lotWithdrawn id x else p := by
  unfold withdrawIfAnnounced
  simp only [withdrawAnnounced_eq] <;> rfl

theorem withdrawIfAnnounced_cases (p : Part) (id : Nat) :
    (withdrawIfAnnounced p id = p ∧ ∀ x, p.lot id = some x → x.state ≠ .announced) ∨
    ∃ x, p.lot id = some x ∧ x.state = .announced ∧ withdrawIfAnnounced p id = p.lotWithdrawn id x := by
  rw [withdrawIfAnnounced_eq]
  cases h : p.lot id with
  | none => exact .inl ⟨rfl, fun x hx => by cases hx⟩
  | some x =>
    by_cases hs : x.state = .announced
    · exact .inr ⟨x, rfl, hs, if_pos hs⟩
    · exact .inl ⟨if_neg hs, fun y hy => by cases hy; exact hs⟩

theorem withdrawIfAnnounced_lot (p : Part) (id i : Nat) :
    (withdrawIfAnnounced p id).lot i = if i = id then (p.lot i).map Lot.takenBack else p.lot i := by
  rcases withdrawIfAnnounced_cases p id with ⟨hp, hs⟩ | ⟨x, hx, hs, hp⟩
  · rw [hp]
    split
    · next hi =>
      subst hi
      cases h : p.lot i with
      | none => rfl
      | some x => simp [Lot.takenBack, hs x h]
    · rfl
  · rw [hp, Part.lotWithdrawn_lot hx hs]

theorem withdrawIfAnnounced_queue_subset (p : Part) (id : Nat) (c : ClockId) :
    (withdrawIfAnnounced p id).supply.queues.get c ⊆ p.supply.queues.get c := by
  rcases withdrawIfAnnounced_cases p id with ⟨hp, -⟩ | ⟨x, -, -, hp⟩
  · rw [hp]; exact List.Subset.refl _
  · rw [hp, Part.lotWithdrawn_queue]
    split
    · exact List.filter_subset_self _
    · exact List.Subset.refl _

/-- A withdrawal reads and changes the tables, the queues and the hand-overs alone. -/
theorem withdrawIfAnnounced_links (p : Part) (links : PerLink Link) (id : Nat) :
    withdrawIfAnnounced { p with links := links } id = { withdrawIfAnnounced p id with links := links } := by
  simp only [withdrawIfAnnounced_eq, show ({ p with links := links } : Part).lot id = p.lot id from rfl]
  cases p.lot id with
  | none => rfl
  | some x =>
    by_cases hs : x.state = .announced
    · simp only [hs, if_true]; rfl
    · simp only [hs, if_false]

theorem withdrawIfAnnounced_rest (p : Part) (id : Nat) :
    ∃ v h, withdrawIfAnnounced p id = { p with supply := v, channels := h } := by
  rcases withdrawIfAnnounced_cases p id with ⟨hp, -⟩ | ⟨x, -, -, hp⟩
  · exact ⟨_, _, hp⟩
  · exact ⟨_, _, hp⟩

/-! ### The lots of a withdrawn train, one after another (R17) -/

theorem foldl_withdraw_links (ids : List Nat) (p : Part) (links : PerLink Link) :
    ids.foldl withdrawIfAnnounced { p with links := links } = { ids.foldl withdrawIfAnnounced p with links := links } := by
  induction ids generalizing p with
  | nil => rfl
  | cons i rest ih => rw [List.foldl_cons, withdrawIfAnnounced_links, ih]; rfl

theorem foldl_withdraw_rest (ids : List Nat) (p : Part) :
    ∃ v h, ids.foldl withdrawIfAnnounced p = { p with supply := v, channels := h } := by
  induction ids generalizing p with
  | nil => exact ⟨_, _, rfl⟩
  | cons i rest ih =>
    obtain ⟨v, h, hi⟩ := withdrawIfAnnounced_rest p i
    obtain ⟨w, k, hr⟩ := ih (withdrawIfAnnounced p i)
    exact ⟨w, k, by rw [List.foldl_cons, hr, hi]⟩

theorem foldl_withdraw_lot (ids : List Nat) (p : Part) (i : Nat) :
    (ids.foldl withdrawIfAnnounced p).lot i = if i ∈ ids then (p.lot i).map Lot.takenBack else p.lot i := by
  induction ids generalizing p with
  | nil => simp
  | cons j rest ih =>
    rw [List.foldl_cons, ih, withdrawIfAnnounced_lot]
    by_cases hj : i = j <;> by_cases hr : i ∈ rest <;> simp [hj, hr, Function.comp_def, Lot.takenBack_takenBack]

theorem foldl_withdraw_queue_subset (ids : List Nat) (p : Part) (c : ClockId) :
    (ids.foldl withdrawIfAnnounced p).supply.queues.get c ⊆ p.supply.queues.get c := by
  induction ids generalizing p with
  | nil => exact List.Subset.refl _
  | cons i rest ih => exact List.Subset.trans (ih _) (withdrawIfAnnounced_queue_subset p i c)

/-- A lot that is withdrawn stands in its queue no longer. -/
theorem foldl_withdraw_queue {ids : List Nat} {p : Part} {i : Nat} {x : Lot} (hx : p.lot i = some x) (hs : x.state = .announced)
    (hi : i ∈ ids) : i ∉ (ids.foldl withdrawIfAnnounced p).supply.queues.get x.clock := by
  induction ids generalizing p with
  | nil => cases hi
  | cons j rest ih =>
    rw [List.foldl_cons]
    by_cases hj : i = j
    · subst hj
      intro hmem
      have := foldl_withdraw_queue_subset rest _ x.clock hmem
      rcases withdrawIfAnnounced_cases p i with ⟨-, hn⟩ | ⟨y, hy, -, hp⟩
      · exact hn x hx hs
      · obtain rfl : x = y := Option.some.inj (hx.symm.trans hy)
        rw [hp, Part.lotWithdrawn_queue, if_pos rfl] at this
        simp at this
    · exact ih (by rw [withdrawIfAnnounced_lot, if_neg hj, hx]) ((List.mem_cons.mp hi).resolve_left hj)

/-! ### LOT WITHDRAW and TRAIN WITHDRAW taken -/

section
variable {l : LinkId} {m : Message} {p : Part}

/-- Past the value of R174 the lot named is judged. -/
theorem takeLotWithdraw_judged {t : Lot} (hid : fieldAt m.body 0 4 ≠ 0) (ht : p.lot (fieldAt m.body 0 4) = some t) :
    takeLotWithdraw l m p =
      if t.state = .staged then p.refuseMsg l m .unknownLot
      else if t.state ≠ .announced then p.refuseMsg l m .busy
      else (p.lotWithdrawn (fieldAt m.body 0 4) t).reply l m (.ack .plain) := by
  simp [takeLotWithdraw, hid, ht, withdrawAnnounced_eq]

theorem takeTrainWithdraw_filling {t : Train} (ht : p.supply.trains.find (fieldAt m.body 0 2) = some t) (hs : t.state = .filling) :
    takeTrainWithdraw l m p =
      (p.updSupply (fun s => { s.freeFilling (fieldAt m.body 0 2) with discard := some (fieldAt m.body 0 2) })).reply l m
        (.ack .plain) := by
  simp [takeTrainWithdraw, ht, hs]

theorem takeTrainWithdraw_admitted {t : Train} (ht : p.supply.trains.find (fieldAt m.body 0 2) = some t)
    (hs : t.state = .admitted) :
    takeTrainWithdraw l m p =
      ((p.supply.lotsOf (fieldAt m.body 0 2)).foldl withdrawIfAnnounced p).reply l m
        (.ack (.lotsWithdrawn (p.announcedCount (p.supply.lotsOf (fieldAt m.body 0 2))))) := by
  simp [takeTrainWithdraw, ht, hs]

end

/-- Settles O28: one lot, and the lots of a train one after another by induction on the list. -/
theorem withdrawnByLogistics : Obligations.WithdrawnByLogistics := by
  refine ⟨?lot, ?train⟩
  case lot =>
    intro l raw s h id
    have hjudged : ∀ {t}, id ≠ 0 → s.part.lot id = some t → _ := fun h1 h2 =>
      takeLotWithdraw_judged (l := l) (m := parse raw) (p := s.part.taking l) h1 h2
    refine ⟨fun hid => h.refused (if_pos hid), fun hid ht => h.refused ?_, fun t hid ht =>
      ⟨fun hs => h.refused ?_, fun hs hn => h.refused ?_, fun hs => h.gives ?_⟩⟩
    · refine Eq.trans (if_neg hid) ?_
      rw [Part.taking_lot, ht]
    · rw [hjudged hid ht, if_pos hs]
    · rw [hjudged hid ht, if_neg hs, if_pos hn]
    · rw [hjudged hid ht, if_neg (by simp [hs]), if_neg (not_not.mpr hs), Part.reply_taken h.up (by rfl)]
      rfl
  case train =>
    intro l raw s h id
    refine ⟨fun ht => h.refused ?_, fun t ht hs => h.gives ?_, ?_⟩
    · simp only [takeTrainWithdraw, Part.taking_supply]
      rw [ht]
    · rw [takeTrainWithdraw_filling (p := s.part.taking l) ht hs]
      exact Part.reply_taken h.up rfl _ _
    · intro t ht hs lots count withdrawn
      have hw : withdrawn = lots.foldl withdrawIfAnnounced s.part := by
        have hf : withdrawIfAnnounced = _ := funext fun p => funext fun i => withdrawIfAnnounced_eq p i
        rw [hf] <;> rfl
      obtain ⟨v, k, hrest⟩ := foldl_withdraw_rest lots s.part
      refine ⟨h.gives ?_, by rw [hw, hrest], fun i x hx => ?_, fun i x hx hi hs => ?_⟩
      · rw [takeTrainWithdraw_admitted (p := s.part.taking l) ht hs, hw, Part.taking, foldl_withdraw_links,
          Part.reply_taken h.up rfl]
        rfl
      · rw [hw, foldl_withdraw_lot, hx]
        by_cases hi : i ∈ lots <;> simp [hi, Lot.takenBack]
      · rw [hw]
        exact foldl_withdraw_queue hx hs hi

end Sys2Proof.Machine
end

section
/-! The last entry of a train (O25). -/

namespace Sys2Proof.Machine

/-! ### A new record put into a table -/

/-- A record put under a new key goes between two parts of the table. -/
theorem Table.put_new {α : Type} {t : Table α} {k : Nat} (v : α) (h : Table.find t k = none) :
    ∃ a b, t = a ++ b ∧ Table.put t k v = a ++ (k, v) :: b := by
  induction t with
  | nil => exact ⟨[], [], rfl, rfl⟩
  | cons e rest ih =>
    obtain ⟨i, w⟩ := e
    by_cases hi : i = k
    · simp [Table.find, hi] at h
    · simp only [Table.find, hi, if_false] at h
      simp only [Table.put, Ne.symm hi, if_false]
      by_cases hk : k < i
      · exact ⟨[], (i, w) :: rest, rfl, if_pos hk⟩
      · obtain ⟨a, b, rfl, hp⟩ := ih h
        exact ⟨(i, w) :: a, b, rfl, by rw [if_neg hk, hp]; rfl⟩

/-- A test that the new record fails. -/
theorem Table.filter_put_new_neg {α : Type} {t : Table α} {k : Nat} {v : α} {f : Nat × α → Bool} (h : Table.find t k = none)
    (hf : f (k, v) = false) : (Table.put t k v).filter f = t.filter f := by
  obtain ⟨a, b, rfl, hp⟩ := Table.put_new v h
  simp [hp, List.filter_append, hf]

/-- A test that the new record alone passes. -/
theorem Table.filter_put_new_only {α : Type} {t : Table α} {k : Nat} {v : α} {f : Nat × α → Bool} (h : Table.find t k = none)
    (hf : f (k, v) = true) (ht : t.filter f = []) : (Table.put t k v).filter f = [(k, v)] := by
  obtain ⟨a, b, rfl, hp⟩ := Table.put_new v h
  rw [List.filter_append, List.append_eq_nil_iff] at ht
  simp [hp, List.filter_append, hf, ht]

/-- The second of two records put under one key stays. -/
theorem Table.put_put {α : Type} (t : Table α) (k : Nat) (v w : α) : Table.put (Table.put t k v) k w = Table.put t k w := by
  induction t with
  | nil => simp [Table.put]
  | cons e rest ih =>
    obtain ⟨i, x⟩ := e
    rcases lt_trichotomy k i with hk | hk | hk
    · simp [Table.put, hk]
    · simp [Table.put, hk]
    · simp [Table.put, hk.not_gt, hk.ne', ih]

/-- A change of every record reaches one that has been put. -/
theorem Table.mapAll_put {α : Type} (t : Table α) (k : Nat) (v : α) (f : α → α) :
    Table.mapAll (Table.put t k v) f = Table.put (Table.mapAll t f) k (f v) := by
  induction t with
  | nil => rfl
  | cons e rest ih =>
    obtain ⟨i, x⟩ := e
    simp only [Table.mapAll, List.map_cons, Table.put] at ih ⊢
    split_ifs <;> simp [ih]

theorem mapAll_foldl_put (g : LotEntry → Lot) (f : Lot → Lot) (es : List LotEntry) (t : Table Lot) :
    Table.mapAll (es.foldl (fun ls e => Table.put ls e.lot (g e)) t) f =
      es.foldl (fun ls e => Table.put ls e.lot (f (g e))) (Table.mapAll t f) := by
  induction es generalizing t with
  | nil => rfl
  | cons e rest ih => rw [List.foldl_cons, List.foldl_cons, ih, Table.mapAll_put]

/-- A key that is none of those put. -/
theorem find_foldl_put_ne {g : LotEntry → Lot} {es : List LotEntry} {i : Nat} (h : i ∉ es.map LotEntry.lot) (t : Table Lot) :
    Table.find (es.foldl (fun ls e => Table.put ls e.lot (g e)) t) i = Table.find t i := by
  induction es generalizing t with
  | nil => rfl
  | cons e rest ih =>
    simp only [List.map_cons, List.mem_cons, not_or] at h
    rw [List.foldl_cons, ih h.2, Table.find_put_ne _ _ h.1]

/-! ### The lots of a train in entry order (R9) -/

/-- Lists laid end to end by place, when a place behind all that are taken is filled. -/
theorem flatMap_range_fill {α : Type} {f g : Nat → List α} {x : List α} {n k : Nat} (hlt : ∀ i < n, g i = f i) (hn : g n = x)
    (hf : ∀ i, n ≤ i → f i = []) (hg : ∀ i, n < i → g i = []) :
    (List.range (n + 1 + k)).flatMap g = (List.range (n + 1 + k)).flatMap f ++ x := by
  have hbelow : (List.range n).flatMap g = (List.range n).flatMap f :=
    List.flatMap_congr fun i hi => hlt i (List.mem_range.mp hi)
  have habove : ∀ h : Nat → List α, (∀ i, n < i → h i = []) → ((List.range k).map (n + 1 + ·)).flatMap h = [] := by
    intro h hh
    simp only [List.flatMap_eq_nil_iff, List.mem_map]
    rintro i ⟨j, -, rfl⟩
    exact hh _ (by omega)
  rw [List.range_add, List.range_succ]
  simp only [List.flatMap_append, hbelow, habove g hg, habove f fun i hi => hf i hi.le, List.flatMap_singleton, hn, hf n (le_refl n),
    List.append_nil]

/-- A trolley put behind the trolleys of its train adds its lots behind theirs. -/
theorem Supply.lotsOf_put {s v : Supply} {trolley id : Nat} {x : Trolley} (hv : v.trolleys = s.trolleys.put trolley x)
    (hnew : Table.find s.trolleys trolley = none) (hx : x.train = id) (hplace : x.place ≤ 16)
    (hlast : ∀ e ∈ s.trolleys, e.2.train = id → e.2.place < x.place) :
    v.lotsOf id = s.lotsOf id ++ x.lots := by
  have hnone : ∀ i, x.place ≤ i → s.trolleys.filter (fun e => decide (e.2.train = id) && decide (e.2.place = i)) = [] := by
    intro i hi
    rw [List.filter_eq_nil_iff]
    intro e he htest
    simp only [Bool.and_eq_true, decide_eq_true_eq] at htest
    have := hlast e he htest.1
    omega
  have hpass : ∀ i, (decide (x.train = id) && decide (x.place = i)) = decide (x.place = i) := by simp [hx]
  have htrolleys : v.trolleysOf id = s.trolleysOf id ++ [(trolley, x)] := by
    obtain ⟨k, hk⟩ : ∃ k, 17 = x.place + 1 + k := ⟨16 - x.place, by omega⟩
    unfold Supply.trolleysOf
    rw [hv, hk]
    refine flatMap_range_fill (fun i hi => ?_) ?_ hnone (fun i hi => ?_)
    · exact Table.filter_put_new_neg hnew (by rw [hpass]; exact decide_eq_false hi.ne')
    · exact Table.filter_put_new_only hnew (by rw [hpass]; exact decide_eq_true rfl) (hnone _ le_rfl)
    · rw [Table.filter_put_new_neg hnew (by rw [hpass]; exact decide_eq_false hi.ne)]
      exact hnone i hi.le
  simp [Supply.lotsOf, htrolleys]

/-! ### The last entry staged, and the train admitted (R9) -/

section
variable {s : Supply} {id trolley : Nat} {t : Train} {es : List LotEntry}

/-- The next lot of a clock is not one of an entry whose lots are new. -/
theorem Supply.nextLot_stageEntry {c : ClockId} (hq : ∀ i ∈ s.queues.get c, i ∉ es.map LotEntry.lot) :
    (stageEntry id t trolley es s).nextLot c = s.nextLot c := by
  simp only [Supply.nextLot]
  rw [show (stageEntry id t trolley es s).queues = s.queues from rfl]
  cases hh : s.queues.get c with
  | nil => rfl
  | cons i rest =>
    have hi : Table.find (stageEntry id t trolley es s).lots i = Table.find s.lots i :=
      find_foldl_put_ne (hq i (by simp [hh])) _
    simp only [hi]

/-- The trolleys and the train of a FILLING train's next entry. -/
theorem Supply.lotsOf_stageEntry (hs : s.TrainsOk) (ht : (id, t) ∈ s.trains) (hf : t.state = .filling)
    (he : s.EntryFits t trolley es) : (stageEntry id t trolley es s).lotsOf id = s.lotsOf id ++ es.map LotEntry.lot := by
  obtain ⟨-, -, htrains⟩ := hs
  obtain ⟨hstated, hplaces, hfilling, -⟩ := htrains (id, t) ht
  have htaken : t.taken < t.stated := (hfilling hf).1
  have hroom : t.taken + 1 ≤ 16 := Nat.le_trans htaken hstated
  refine Supply.lotsOf_put (s := s) (x := ⟨id, t.clock, t.taken + 1, es.map LotEntry.lot, .staged, []⟩) rfl he.newTrolley rfl hroom
    fun e hm hid => ?_
  obtain ⟨-, -, hle, -⟩ := hplaces e hm hid
  exact Nat.lt_succ_of_le hle

/-- Admission after staging, in the order of the statement: the records are put ANNOUNCED. -/
theorem Supply.admitTrain_stageEntry (hlast : t.taken + 1 = t.stated)
    (hlots : (stageEntry id t trolley es s).lotsOf id = s.lotsOf id ++ es.map LotEntry.lot) :
    let clamped := t.clamped + (es.filter (fun e => e.clamps)).length
    (stageEntry id t trolley es s).admitTrain id { t with taken := t.taken + 1, clamped := clamped } =
      { s with
        trains := s.trains.put id { t with taken := t.stated, clamped := clamped, state := .admitted, live := t.stated },
        trolleys := (s.trolleys.mapAll (fun x => if x.state = .staged then { x with state := .announced } else x)).put trolley
          { train := id, clock := t.clock, place := t.stated, lots := es.map LotEntry.lot, state := .announced, picks := [] },
        lots := es.foldl (fun ls e => ls.put e.lot { e.staged trolley t.clock with state := .announced })
          (s.lots.mapAll (fun x => if x.state = .staged then { x with state := .announced } else x)),
        queues := s.queues.upd t.clock (fun q => q ++ (s.lotsOf id ++ es.map LotEntry.lot)) } := by
  intro clamped
  unfold Supply.admitTrain
  rw [hlots]
  simp only [stageEntry, Table.put_put, Table.mapAll_put, mapAll_foldl_put, hlast]
  rfl

end

/-- Admission told: TRAIN ACCEPTED, and the change of the next lot where there is one. -/
theorem admitTrain_taken {p q : Part} {l : LinkId} {id n : Nat} {t : Train} {v : Supply} {lots : List Nat}
    (hu : (p.links.get l).state = .up) (hq : q.links = p.unqueued l) (hv : q.supply.admitTrain id t = v)
    (hn : q.supply.nextLot t.clock = n) (hl : q.supply.lotsOf id = lots) :
    admitTrain l id t q = { q with
      links := p.answeredBy l ⟨t.tag, .trainAccepted id t.clock t.stated lots.length t.clamped⟩,
      supply := v,
      channels := q.channels.upd t.clock (fun h =>
        if v.nextLot t.clock = n then h
        else { h with supplyToDisplay := h.supplyToDisplay ++ [⟨v.nextLot t.clock, false⟩] }) } := by
  subst hv hn hl
  simp only [admitTrain]
  rw [Part.postUrgent_taken hu _ (by exact hq)]
  simp only [Part.supplyEvent, Part.nextLot_eq, Part.updSupply_supply]
  by_cases h : (q.supply.admitTrain id t).nextLot t.clock = q.supply.nextLot t.clock
  · rw [if_pos h]
    simp only [h, if_true]
    rw [PerClock.upd_eq_self _ _ _ rfl]
    rfl
  · rw [if_neg h]
    simp only [h, if_false]
    rfl

/-- Settles O25: the entry is staged, which leaves the next lot alone, and the train is admitted with it. -/
theorem trainAdmitted : Obligations.TrainAdmitted := by
  intro l raw id t s h hf hid htables hsupply trolley es hp hlast lots clamped record v
  obtain ⟨htrains, -, -, hqueues, -⟩ := hsupply
  have hfits : s.part.supply.EntryFits t trolley es := entryFits_of_noProblem hp
  obtain ⟨hmem, hstate⟩ := Supply.filling_mem hf
  have hlots := Supply.lotsOf_stageEntry htrains hmem hstate hfits
  have hadmitted : (stageEntry id t trolley es s.part.supply).admitTrain id { t with taken := t.taken + 1, clamped := clamped } = v :=
    Supply.admitTrain_stageEntry hlast hlots
  have hnext : (stageEntry id t trolley es s.part.supply).nextLot t.clock = s.part.supply.nextLot t.clock := by
    refine Supply.nextLot_stageEntry fun i hi hnew => ?_
    obtain ⟨e, he, rfl⟩ := List.mem_map.mp hnew
    obtain ⟨-, -, hheld, -⟩ := hqueues t.clock (by cases t.clock <;> simp [clockIds])
    obtain ⟨x, hx, -⟩ := hheld _ hi
    rw [Part.lot, hfits.newLots e he] at hx
    cases hx
  refine h.gives (Eq.trans (takeTrolleyEntry_staged hf hid hp) ?_)
  refine Eq.trans (afterEntry_eq (stageEntry_find id t trolley es s.part.supply)) (Eq.trans (if_pos hlast) ?_)
  exact admitTrain_taken h.up rfl hadmitted hnext hlots

end Sys2Proof.Machine
end

section
/-! The Supply Unit's records in agreement (R1 to R5), said of the records that the tables hold under their keys. -/

namespace Sys2Proof.Machine

/-! ### Counting the records of a table that pass a test -/

/-- The number of records that pass a test. -/
def Table.count {α : Type} (t : Table α) (f : α → Bool) : Nat := (t.filter (fun e => f e.2)).length

theorem Table.find_keep {α : Type} {t : Table α} (h : Table.rising t = true) (f : α → Bool) (k : Nat) :
    Table.find (Table.keep t f) k = (Table.find t k).filter f := by
  apply Option.ext
  intro v
  rw [Table.find_iff_mem (Table.rising_keep t f h), Option.filter_eq_some_iff, Table.find_iff_mem h]
  exact List.mem_filter

theorem Table.count_put_new {α : Type} {t : Table α} {k : Nat} (h : Table.find t k = none) (v : α) (f : α → Bool) :
    Table.count (Table.put t k v) f = Table.count t f + if f v then 1 else 0 := by
  obtain ⟨a, b, rfl, hp⟩ := Table.put_new v h
  by_cases hv : f v = true <;> simp [Table.count, hp, hv]; omega

theorem Table.count_mapAll {α : Type} (t : Table α) (g : α → α) (f : α → Bool) :
    Table.count (Table.mapAll t g) f = Table.count t (fun v => f (g v)) := by
  simp [Table.count, Table.mapAll, List.filter_map, Function.comp_def]

/-- Counts of tests that agree on the records held. -/
theorem Table.count_congr {α : Type} {t : Table α} (hr : Table.rising t = true) {f g : α → Bool}
    (h : ∀ k v, Table.find t k = some v → f v = g v) : Table.count t f = Table.count t g := by
  unfold Table.count
  congr 1
  exact List.filter_congr fun e he => h e.1 e.2 ((Table.find_iff_mem hr e.1 e.2).mpr he)

/-- Fewer records pass a test that is harder to pass. -/
theorem Table.count_le {α : Type} {t : Table α} (hr : Table.rising t = true) {f g : α → Bool}
    (h : ∀ k v, Table.find t k = some v → f v = true → g v = true) : Table.count t f ≤ Table.count t g := by
  unfold Table.count
  refine (List.Sublist.length_le ?_)
  rw [show t.filter (fun e => f e.2) = (t.filter (fun e => g e.2)).filter (fun e => f e.2) from ?_]
  · exact List.filter_sublist
  · rw [List.filter_filter]
    refine List.filter_congr fun e he => ?_
    have := h e.1 e.2 ((Table.find_iff_mem hr e.1 e.2).mpr he)
    cases hf : f e.2 <;> simp_all

/-- The change of one record that leaves a test as it was. -/
theorem Table.count_modify {α : Type} {t : Table α} (hr : Table.rising t = true) {k : Nat} {g : α → α} {f : α → Bool}
    (h : ∀ v, Table.find t k = some v → f (g v) = f v) : Table.count (Table.modify t k g) f = Table.count t f := by
  unfold Table.count Table.modify
  rw [List.filter_map, List.length_map]
  congr 1
  refine List.filter_congr fun e he => ?_
  by_cases hk : e.1 = k
  · simpa [hk] using h e.2 (hk ▸ (Table.find_iff_mem hr e.1 e.2).mpr he)
  · simp [hk]

theorem Table.count_keep {α : Type} (t : Table α) (f g : α → Bool) :
    Table.count (Table.keep t g) f = Table.count t (fun v => f v && g v) := by
  simp [Table.count, Table.keep, List.filter_filter]

theorem Table.count_del_le {α : Type} (t : Table α) (k : Nat) (f : α → Bool) : Table.count (Table.del t k) f ≤ Table.count t f :=
  (List.filter_sublist.filter _).length_le

theorem Table.count_foldl_del_le {α : Type} (ks : List Nat) (t : Table α) (f : α → Bool) :
    Table.count (ks.foldl Table.del t) f ≤ Table.count t f := by
  induction ks generalizing t with
  | nil => exact le_rfl
  | cons k rest ih => exact (ih _).trans (Table.count_del_le t k f)

/-- Freeing a record lowers the count by one where the record passed. -/
theorem Table.count_del {α : Type} {t : Table α} (hr : Table.rising t = true) {k : Nat} {v : α} (h : Table.find t k = some v)
    (f : α → Bool) : Table.count (Table.del t k) f + (if f v then 1 else 0) = Table.count t f := by
  induction t with
  | nil => cases h
  | cons e rest ih =>
    obtain ⟨i, w⟩ := e
    have hkeys := (Table.rising_iff _).mp hr
    simp only [List.map_cons, List.pairwise_cons, List.mem_map] at hkeys
    have hrest : Table.rising rest = true := (Table.rising_iff _).mpr hkeys.2
    simp only [Table.find] at h
    by_cases hi : i = k
    · subst hi
      simp only [if_true, Option.some.injEq] at h
      subst h
      have hd : Table.del rest i = rest := by
        refine List.filter_eq_self.mpr fun e he => ?_
        have := hkeys.1 e.1 ⟨e, he, rfl⟩
        simp; omega
      have : Table.del ((i, w) :: rest) i = rest := by
        rw [Table.del, List.filter_cons_of_neg (by simp)]; exact hd
      rw [this]
      by_cases hw : f w = true <;> simp [Table.count, hw]
    · rw [if_neg hi] at h
      have := ih hrest h
      have hd : Table.del ((i, w) :: rest) k = (i, w) :: Table.del rest k := by
        rw [Table.del, List.filter_cons_of_pos (by simpa using hi)]; rfl
      rw [hd]
      by_cases hw : f w = true <;> simp [Table.count, hw] at this ⊢ <;> omega

/-- A table in form holds no record twice. -/
theorem Table.nodup {α : Type} {t : Table α} (h : Table.rising t = true) : t.Nodup := by
  refine List.Nodup.of_map (·.1) ?_
  exact ((Table.rising_iff t).mp h).imp (fun h => h.ne)

/-- At most one record passes a test exactly when two that pass are held under one key. -/
theorem Table.count_le_one_iff {α : Type} {t : Table α} (hr : Table.rising t = true) (f : α → Bool) :
    Table.count t f ≤ 1 ↔
      ∀ i j x y, Table.find t i = some x → Table.find t j = some y → f x = true → f y = true → i = j := by
  constructor
  · intro h i j x y hx hy hfx hfy
    have hmx : (i, x) ∈ t.filter (fun e => f e.2) := List.mem_filter.mpr ⟨(Table.find_iff_mem hr i x).mp hx, hfx⟩
    have hmy : (j, y) ∈ t.filter (fun e => f e.2) := List.mem_filter.mpr ⟨(Table.find_iff_mem hr j y).mp hy, hfy⟩
    unfold Table.count at h
    match hl : t.filter (fun e => f e.2) with
    | [] => simp [hl] at hmx
    | [a] =>
      rw [hl, List.mem_singleton] at hmx hmy
      exact congrArg (·.1) (hmx.trans hmy.symm)
    | a :: b :: rest => simp [hl] at h
  · intro h
    have hd : (t.filter (fun e => f e.2)).Nodup := (Table.nodup hr).filter _
    unfold Table.count
    match hl : t.filter (fun e => f e.2) with
    | [] => simp [hl]
    | [a] => simp [hl]
    | a :: b :: rest =>
      exfalso
      have hma : a ∈ t.filter (fun e => f e.2) := by simp [hl]
      have hmb : b ∈ t.filter (fun e => f e.2) := by simp [hl]
      obtain ⟨ha, hfa⟩ := List.mem_filter.mp hma
      obtain ⟨hb, hfb⟩ := List.mem_filter.mp hmb
      have hfinda := (Table.find_iff_mem hr a.1 a.2).mpr ha
      have hfindb := (Table.find_iff_mem hr b.1 b.2).mpr hb
      have hkey := h a.1 b.1 a.2 b.2 hfinda hfindb hfa hfb
      rw [hkey, hfindb] at hfinda
      have hab : a = b := Prod.ext hkey (Option.some.inj hfinda).symm
      rw [hl, List.nodup_cons] at hd
      exact hd.1 (by simp [hab])

end Sys2Proof.Machine
end

section
/-! The Supply Unit's records in agreement (R1 to R5), said of the records that the tables hold under their keys. -/

namespace Sys2Proof.Machine

/-! ### The Supply Unit alone -/

/-- R1, R7 to R9: a train's counts against the number of its trolleys. A FILLING train is short of its stated entries, or is not past
them by the slack that the handling of an entry leaves for a moment. -/
structure Train.Counts (slack : Nat) (r : Train) (n : Nat) : Prop where
  stated : r.stated ≤ 16
  filling : r.state = .filling → r.taken < r.stated + slack ∧ n = r.taken
  admitted : r.state = .admitted → r.taken = r.stated ∧ 1 ≤ r.live ∧ n = r.live

/-- R1, R2: a trolley of a train. -/
structure Trolley.Fits (t : Trolley) (r : Train) : Prop where
  clock : t.clock = r.clock
  first : 1 ≤ t.place
  last : t.place ≤ r.taken
  staged : t.state = .staged ↔ r.state = .filling

/-- R2, R3: a lot of the list of a trolley. -/
structure Lot.On (x : Lot) (n : Nat) (t : Trolley) : Prop where
  trolley : x.trolley = n
  clock : x.clock = t.clock
  allowed : t.state.allows x.state = true

/-- Whether a trolley stands in a slot. -/
def TrolleyState.inSlot (t : TrolleyState) : Prop := t = .presented ∨ t = .departing

/-- The number of a train's trolleys. -/
def Supply.trolleyCount (s : Supply) (r : Nat) : Nat := Table.count s.trolleys (fun t => decide (t.train = r))

/-- The trains, trolleys, lots and slots in agreement. -/
structure Supply.Sound (slack : Nat) (s : Supply) : Prop where
  oneFilling : ∀ {i j r q}, Table.find s.trains i = some r → Table.find s.trains j = some q → r.state = .filling →
    q.state = .filling → i = j
  train : ∀ {n t}, Table.find s.trolleys n = some t → ∃ r, Table.find s.trains t.train = some r ∧ t.Fits r
  counts : ∀ {i r}, Table.find s.trains i = some r → r.Counts slack (s.trolleyCount i)
  units : ∀ {i x}, Table.find s.lots i = some x → x.announced = x.remaining + x.sold
  listed : ∀ {i x}, Table.find s.lots i = some x → ∃ t, Table.find s.trolleys x.trolley = some t ∧ i ∈ t.lots
  nodup : ∀ {n t}, Table.find s.trolleys n = some t → t.lots.Nodup
  lot : ∀ {n t i}, Table.find s.trolleys n = some t → i ∈ t.lots → ∃ x, Table.find s.lots i = some x ∧ x.On n t
  slot : ∀ {c n}, s.slots.get c = some n → ∃ t, Table.find s.trolleys n = some t ∧ t.clock = c ∧ t.state.inSlot
  stands : ∀ {n t}, Table.find s.trolleys n = some t → t.state.inSlot → s.slots.get t.clock = some n

section
variable {s : Supply}

theorem Table.forall_mem {α : Type} {t : Table α} (h : Table.rising t = true) {P : Nat → α → Prop} :
    (∀ e ∈ t, P e.1 e.2) ↔ ∀ k v, Table.find t k = some v → P k v :=
  ⟨fun hm k v hv => hm (k, v) ((Table.find_iff_mem h k v).mp hv),
    fun hf e he => hf e.1 e.2 ((Table.find_iff_mem h e.1 e.2).mpr he)⟩

theorem Table.exists_mem {α : Type} {t : Table α} (h : Table.rising t = true) {P : Nat → α → Prop} :
    (∃ e ∈ t, P e.1 e.2) ↔ ∃ k v, Table.find t k = some v ∧ P k v :=
  ⟨fun ⟨e, he, hp⟩ => ⟨e.1, e.2, (Table.find_iff_mem h e.1 e.2).mpr he, hp⟩,
    fun ⟨k, v, hv, hp⟩ => ⟨(k, v), (Table.find_iff_mem h k v).mp hv, hp⟩⟩

theorem Supply.trainsOk_iff (h : s.TablesOk) :
    s.TrainsOk ↔
      (∀ i j r q, Table.find s.trains i = some r → Table.find s.trains j = some q → r.state = .filling →
        q.state = .filling → i = j) ∧
      (∀ n t, Table.find s.trolleys n = some t → ∃ r, Table.find s.trains t.train = some r ∧ t.Fits r) ∧
      ∀ i r, Table.find s.trains i = some r → r.Counts 0 (s.trolleyCount i) := by
  have hone := Table.count_le_one_iff h.trainsRise (fun r => decide (r.state = .filling))
  simp only [decide_eq_true_eq] at hone
  unfold Supply.TrainsOk
  refine and_congr hone ?_
  rw [Table.forall_mem h.trolleysRise (P := fun _ t => s.trains.has t.train = true),
    Table.forall_mem h.trainsRise (P := fun i r => r.stated ≤ 16 ∧
      (∀ t ∈ s.trolleys, t.2.train = i → t.2.clock = r.clock ∧ 1 ≤ t.2.place ∧ t.2.place ≤ r.taken ∧
        (t.2.state = .staged ↔ r.state = .filling)) ∧
      (r.state = .filling → r.taken < r.stated ∧ (s.trolleys.filter (fun t => decide (t.2.train = i))).length = r.taken) ∧
      (r.state = .admitted → r.taken = r.stated ∧ 1 ≤ r.live ∧
        (s.trolleys.filter (fun t => decide (t.2.train = i))).length = r.live))]
  constructor
  · rintro ⟨hhas, htrain⟩
    refine ⟨fun n t ht => ?_, fun i r hr => ?_⟩
    · obtain ⟨r, hr⟩ := Option.isSome_iff_exists.mp (hhas n t ht)
      obtain ⟨h1, h2, h3, h4⟩ := (htrain _ r hr).2.1 (n, t) (Table.mem_of_find ht) rfl
      exact ⟨r, hr, h1, h2, h3, h4⟩
    · obtain ⟨h1, -, h3, h4⟩ := htrain i r hr
      exact ⟨h1, h3, h4⟩
  · rintro ⟨hfits, hcounts⟩
    refine ⟨fun n t ht => ?_, fun i r hr => ?_⟩
    · obtain ⟨r, hr, -⟩ := hfits n t ht
      simp [Table.has, hr]
    · have hc := hcounts i r hr
      refine ⟨hc.stated, fun e he hi => ?_, hc.filling, hc.admitted⟩
      obtain ⟨q, hq, hf⟩ := hfits e.1 e.2 ((Table.find_iff_mem h.trolleysRise e.1 e.2).mpr he)
      rw [hi, hr] at hq
      cases hq
      exact ⟨hf.clock, hf.first, hf.last, hf.staged⟩

theorem Supply.lotsOk_iff (h : s.TablesOk) :
    s.LotsOk ↔
      (∀ i x, Table.find s.lots i = some x → x.announced = x.remaining + x.sold) ∧
      (∀ i x, Table.find s.lots i = some x → ∃ t, Table.find s.trolleys x.trolley = some t ∧ i ∈ t.lots) ∧
      (∀ n t, Table.find s.trolleys n = some t → t.lots.Nodup) ∧
      ∀ n t i, Table.find s.trolleys n = some t → i ∈ t.lots → ∃ x, Table.find s.lots i = some x ∧ x.On n t := by
  have hlisted : ∀ (i : Nat) (x : Lot), (∃ t ∈ s.trolleys, t.1 = x.trolley ∧ i ∈ t.2.lots) ↔
      ∃ t, Table.find s.trolleys x.trolley = some t ∧ i ∈ t.lots := by
    intro i x
    rw [Table.exists_mem h.trolleysRise (P := fun n t => n = x.trolley ∧ i ∈ t.lots)]
    constructor
    · rintro ⟨n, t, ht, rfl, hi⟩; exact ⟨t, ht, hi⟩
    · rintro ⟨t, ht, hi⟩; exact ⟨_, t, ht, rfl, hi⟩
  have hon : ∀ (n : Nat) (t : Trolley), (∀ i ∈ t.lots, ∃ x ∈ (Table.find s.lots i).toList,
        x.trolley = n ∧ x.clock = t.clock ∧ t.state.allows x.state = true) ↔
      ∀ i, i ∈ t.lots → ∃ x, Table.find s.lots i = some x ∧ x.On n t := by
    intro n t
    simp only [Option.mem_toList]
    refine forall_congr' fun i => imp_congr_right fun _ => exists_congr fun x => and_congr_right fun _ => ?_
    exact ⟨fun ⟨a, b, c⟩ => ⟨a, b, c⟩, fun ⟨a, b, c⟩ => ⟨a, b, c⟩⟩
  have hnodup : (∀ n t i, Table.find s.trolleys n = some t → i ∈ t.lots → ∃ x, Table.find s.lots i = some x ∧ x.On n t) →
      ((s.trolleys.flatMap (fun t => t.2.lots)).Nodup ↔ ∀ n t, Table.find s.trolleys n = some t → t.lots.Nodup) := by
    intro hlot
    rw [List.nodup_flatMap, Table.forall_mem h.trolleysRise (P := fun _ t => t.lots.Nodup)]
    refine and_iff_left ((Table.nodup h.trolleysRise).imp_of_mem fun {a b} ha hb hab => ?_)
    intro i hia hib
    have hfa := (Table.find_iff_mem h.trolleysRise a.1 a.2).mpr ha
    have hfb := (Table.find_iff_mem h.trolleysRise b.1 b.2).mpr hb
    obtain ⟨x, hx, hxa⟩ := hlot _ _ i hfa hia
    obtain ⟨y, hy, hyb⟩ := hlot _ _ i hfb hib
    rw [hx] at hy
    cases hy
    have hkey : a.1 = b.1 := hxa.trolley.symm.trans hyb.trolley
    rw [hkey, hfb] at hfa
    exact hab (Prod.ext hkey (Option.some.inj hfa).symm)
  unfold Supply.LotsOk
  rw [Table.forall_mem h.lotsRise (P := fun i (x : Lot) => x.announced = x.remaining + x.sold ∧
      ∃ t ∈ s.trolleys, t.1 = x.trolley ∧ i ∈ t.2.lots),
    Table.forall_mem h.trolleysRise (P := fun n (t : Trolley) => ∀ i ∈ t.lots, ∃ x ∈ (Table.find s.lots i).toList,
        x.trolley = n ∧ x.clock = t.clock ∧ t.state.allows x.state = true)]
  simp only [hlisted, hon]
  constructor
  · rintro ⟨h1, h2, h3⟩
    have h3' : ∀ n t i, Table.find s.trolleys n = some t → i ∈ t.lots → _ := fun n t i ht hi => h3 n t ht i hi
    exact ⟨fun i x hx => (h1 i x hx).1, fun i x hx => (h1 i x hx).2, (hnodup h3').mp h2, h3'⟩
  · rintro ⟨h1, h2, h3, h4⟩
    exact ⟨fun i x hx => ⟨h1 i x hx, h2 i x hx⟩, (hnodup h4).mpr h3, fun n t ht i hi => h4 n t i ht hi⟩

theorem Supply.slotsOk_iff (h : s.TablesOk) :
    s.SlotsOk ↔
      (∀ c n, s.slots.get c = some n → ∃ t, Table.find s.trolleys n = some t ∧ t.clock = c ∧ t.state.inSlot) ∧
      ∀ n t, Table.find s.trolleys n = some t → t.state.inSlot → s.slots.get t.clock = some n := by
  unfold Supply.SlotsOk
  rw [Table.forall_mem h.trolleysRise (P := fun n t => t.state = .presented ∨ t.state = .departing →
    s.slots.get t.clock = some n)]
  simp only [Option.mem_toList, mem_clockIds, forall_const]
  rfl

theorem Supply.sound_iff (h : s.TablesOk) : s.Sound 0 ↔ s.TrainsOk ∧ s.LotsOk ∧ s.SlotsOk := by
  rw [Supply.trainsOk_iff h, Supply.lotsOk_iff h, Supply.slotsOk_iff h]
  constructor
  · rintro ⟨h1, h2, h3, h4, h5, h6, h7, h8, h9⟩
    exact ⟨⟨fun _ _ _ _ => h1, fun _ _ => h2, fun _ _ => h3⟩,
      ⟨fun _ _ => h4, fun _ _ => h5, fun _ _ => h6, fun _ _ _ => h7⟩, fun _ _ => h8, fun _ _ => h9⟩
  · rintro ⟨⟨h1, h2, h3⟩, ⟨h4, h5, h6, h7⟩, h8, h9⟩
    exact ⟨h1 _ _ _ _, h2 _ _, h3 _ _, h4 _ _, h5 _ _, h6 _ _, h7 _ _ _, h8 _ _, h9 _ _⟩

end

/-! ### Queues and hands -/

/-- The number of lots staged for a clock. -/
def Supply.stagedOn (s : Supply) (c : ClockId) : Nat :=
  Table.count s.lots (fun x => decide (x.state = .staged) && decide (x.clock = c))

/-- R5, R8, R15: the queue of a clock against the lots and the clock's reports. -/
structure Part.QueueSound (p : Part) (c : ClockId) : Prop where
  nodup : (p.supply.queues.get c).Nodup
  fits : (p.supply.queues.get c).length + p.supply.stagedOn c ≤ Config.maxQueue
  queued : ∀ {i}, i ∈ p.supply.queues.get c → ∃ x, p.lot i = some x ∧ x.clock = c ∧ x.state ≠ .staged ∧
    (x.state.done = true → i ∈ (p.channels.get c).clockToSupply)
  waits : ∀ {i x}, p.lot i = some x → x.clock = c → x.state ≠ .staged → x.state.done = false → i ∈ p.supply.queues.get c

/-- The number of lots a clock has in hand. -/
def Part.inHand (p : Part) (c : ClockId) : Nat :=
  (p.channels.get c).headsTold.length + (p.clocks.get c).run.lot.toList.length + (p.channels.get c).clockToSupply.length

/-- R15, R28, R29, R48: a clock has one lot in hand at most, the head of its queue. -/
structure Part.HandSound (p : Part) (c : ClockId) : Prop where
  one : p.inHand c ≤ 1
  told : ∀ {i}, i ∈ (p.channels.get c).headsTold → (p.supply.queues.get c).head? = some i ∧
    ∃ x, p.lot i = some x ∧ x.state = .presented
  sold : ∀ {i}, (p.clocks.get c).run.lot = some i → (p.supply.queues.get c).head? = some i ∧
    ∃ x, p.lot i = some x ∧ (x.state = .presented ∨ x.state = .selling) ∧
      ∀ y ∈ (p.clocks.get c).candidates, y.quantity ≤ x.remaining
  reported : ∀ {i}, i ∈ (p.channels.get c).clockToSupply → (p.supply.queues.get c).head? = some i ∧
    ∃ x, p.lot i = some x ∧ x.state.done = true ∧ (p.trolley x.trolley).map Trolley.state = some .presented

theorem Part.queuesOk_iff {p : Part} (h : p.supply.TablesOk) : p.QueuesOk ↔ ∀ c, p.QueueSound c := by
  unfold Part.QueuesOk
  refine forall_congr' fun c => ?_
  simp only [mem_clockIds, forall_const, Option.mem_toList]
  rw [Table.forall_mem h.lotsRise (P := fun i x => x.clock = c → x.state ≠ .staged → x.state.done = false →
    i ∈ p.supply.queues.get c)]
  exact ⟨fun ⟨h1, h2, h3, h4⟩ => ⟨h1, h2, h3 _, h4 _ _⟩, fun ⟨h1, h2, h3, h4⟩ => ⟨h1, h2, fun _ => h3, fun _ _ => h4⟩⟩

theorem Part.handsOk_iff {p : Part} : p.HandsOk ↔ ∀ c, p.HandSound c := by
  unfold Part.HandsOk
  refine forall_congr' fun c => ?_
  simp only [mem_clockIds, forall_const, Part.headIs, Option.mem_toList, Bool.and_eq_true, Bool.or_eq_true, decide_eq_true_eq,
    List.all_eq_true]
  exact ⟨fun ⟨h1, h2, h3, h4⟩ => ⟨h1, h2 _, h3 _, h4 _⟩, fun ⟨h1, h2, h3, h4⟩ => ⟨h1, fun _ => h2, fun _ => h3, fun _ => h4⟩⟩

/-- The Supply Unit in agreement with itself and with what the clocks have in hand. -/
structure Part.Sound (slack : Nat) (p : Part) : Prop where
  supply : p.supply.Sound slack
  queue : ∀ c, p.QueueSound c
  hand : ∀ c, p.HandSound c

theorem Part.supplyOk_iff {p : Part} (h : p.supply.TablesOk) : p.SupplyOk ↔ p.Sound 0 := by
  unfold Part.SupplyOk
  rw [Part.queuesOk_iff h, Part.handsOk_iff]
  constructor
  · rintro ⟨h1, h2, h3, h4, h5⟩
    exact ⟨(Supply.sound_iff h).mpr ⟨h1, h2, h3⟩, h4, h5⟩
  · rintro ⟨h1, h4, h5⟩
    obtain ⟨h1, h2, h3⟩ := (Supply.sound_iff h).mp h1
    exact ⟨h1, h2, h3, h4, h5⟩

end Sys2Proof.Machine
end

section
/-! What keeps the Supply Unit in agreement: a clock that a change does not touch, and the manifests. -/

namespace Sys2Proof.Machine

/-! ### States -/

theorem TrolleyState.allows_staged {t : TrolleyState} {x : LotState} (h : t.allows x = true) : x = .staged ↔ t = .staged := by
  cases t <;> cases x <;> simp [TrolleyState.allows, LotState.done] at h ⊢

/-- A lot on offer lies on a trolley that is presented. -/
theorem TrolleyState.allows_selling {t : TrolleyState} {x : LotState} (h : t.allows x = true)
    (hx : x = .presented ∨ x = .selling) : t = .presented := by
  cases t <;> cases x <;> simp [TrolleyState.allows, LotState.done] at h hx ⊢

theorem TrolleyState.inSlot_ne_staged {t : TrolleyState} (h : t.inSlot) : t ≠ .staged := by
  rcases h with rfl | rfl <;> decide

/-! ### What the agreement is read from -/

theorem Supply.Sound.of_same {k : Nat} {s v : Supply} (h : s.Sound k) (ht : v.trains = s.trains) (hr : v.trolleys = s.trolleys)
    (hl : v.lots = s.lots) (hs : v.slots = s.slots) : v.Sound k := by
  obtain ⟨trains, trolleys, lots, queues, slots, discard⟩ := v
  simp only at ht hr hl hs
  subst ht hr hl hs
  exact ⟨h.oneFilling, h.train, h.counts, h.units, h.listed, h.nodup, h.lot, h.slot, h.stands⟩

/-- A lot that a clock is told of, has in its run record, or has reported done. -/
def Part.Holds (p : Part) (c : ClockId) (i : Nat) : Prop :=
  i ∈ (p.channels.get c).headsTold ∨ (p.clocks.get c).run.lot = some i ∨ i ∈ (p.channels.get c).clockToSupply

/-- A change that leaves alone all that the agreement about what one clock has in hand is read from: what it has in hand, that this heads
its queue, the record of the lot, and which of its trolleys are presented. It may drop candidates. -/
structure Part.HandSame (p q : Part) (c : ClockId) : Prop where
  told : (q.channels.get c).headsTold = (p.channels.get c).headsTold
  reported : (q.channels.get c).clockToSupply = (p.channels.get c).clockToSupply
  sold : (q.clocks.get c).run.lot = (p.clocks.get c).run.lot
  candidates : (q.clocks.get c).candidates ⊆ (p.clocks.get c).candidates
  head : ∀ {i}, p.Holds c i → (p.supply.queues.get c).head? = some i → (q.supply.queues.get c).head? = some i
  held : ∀ {i x}, p.Holds c i → (p.supply.queues.get c).head? = some i → x.clock = c → x.state ≠ .staged → p.lot i = some x →
    q.lot i = some x
  presented : ∀ {n t}, p.trolley n = some t → t.clock = c → t.state = .presented →
    (q.trolley n).map Trolley.state = some .presented

/-- A change that leaves alone the clock's queue and the lots admitted for it as well. It may change the lots staged. -/
structure Part.SameAt (p q : Part) (c : ClockId) : Prop where
  told : (q.channels.get c).headsTold = (p.channels.get c).headsTold
  reported : (q.channels.get c).clockToSupply = (p.channels.get c).clockToSupply
  sold : (q.clocks.get c).run.lot = (p.clocks.get c).run.lot
  candidates : (q.clocks.get c).candidates ⊆ (p.clocks.get c).candidates
  queue : q.supply.queues.get c = p.supply.queues.get c
  kept : ∀ {i x}, i ∈ p.supply.queues.get c → x.clock = c → x.state ≠ .staged → p.lot i = some x → q.lot i = some x
  lots : ∀ {i x}, x.clock = c → x.state ≠ .staged → q.lot i = some x → p.lot i = some x
  presented : ∀ {n t}, p.trolley n = some t → t.clock = c → t.state = .presented →
    (q.trolley n).map Trolley.state = some .presented

section
variable {p q : Part} {c : ClockId} {k : Nat}

theorem Part.SameAt.hand (h : p.SameAt q c) : p.HandSame q c :=
  ⟨h.told, h.reported, h.sold, h.candidates, fun _ hi => h.queue ▸ hi,
    fun _ hi => h.kept (List.mem_of_mem_head? (Option.mem_def.mpr hi)), h.presented⟩

/-- A queue stays in agreement while it, the lots in it and the clock's reports stay, and no lot is admitted. -/
theorem Part.QueueSound.of_kept (h : p.QueueSound c) (hq : q.supply.queues.get c = p.supply.queues.get c)
    (hr : (q.channels.get c).clockToSupply = (p.channels.get c).clockToSupply)
    (hk : ∀ {i x}, i ∈ p.supply.queues.get c → x.clock = c → x.state ≠ .staged → p.lot i = some x → q.lot i = some x)
    (hl : ∀ {i x}, x.clock = c → x.state ≠ .staged → q.lot i = some x → p.lot i = some x)
    (hfits : (p.supply.queues.get c).length + q.supply.stagedOn c ≤ Config.maxQueue) : q.QueueSound c := by
  refine ⟨hq ▸ h.nodup, hq ▸ hfits, fun {i} hi => ?_, fun {i x} hx hc hst hd => ?_⟩
  · rw [hq] at hi
    obtain ⟨x, hx, hc, hst, hd⟩ := h.queued hi
    exact ⟨x, hk hi hc hst hx, hc, hst, fun hdone => hr ▸ hd hdone⟩
  · rw [hq]
    exact h.waits (hl hc hst hx) hc hst hd

theorem Part.QueueSound.of_sameAt (h : p.QueueSound c) (hs : p.SameAt q c)
    (hfits : (p.supply.queues.get c).length + q.supply.stagedOn c ≤ Config.maxQueue) : q.QueueSound c :=
  h.of_kept hs.queue hs.reported hs.kept hs.lots hfits

/-- The lot at the head of a clock's queue. -/
theorem Part.QueueSound.head (h : p.QueueSound c) {i : Nat} {x : Lot} (hi : (p.supply.queues.get c).head? = some i)
    (hx : p.lot i = some x) : x.clock = c ∧ x.state ≠ .staged := by
  obtain ⟨y, hy, hc, hs, -⟩ := h.queued (List.mem_of_mem_head? (Option.mem_def.mpr hi))
  obtain rfl : x = y := Option.some.inj (hx.symm.trans hy)
  exact ⟨hc, hs⟩

/-- The trolley of a lot, with the clock of both. -/
theorem Supply.Sound.trolley_of_lot {s : Supply} (h : s.Sound k) {i : Nat} {x : Lot} (hx : Table.find s.lots i = some x) :
    ∃ t, Table.find s.trolleys x.trolley = some t ∧ i ∈ t.lots ∧ x.clock = t.clock ∧ t.state.allows x.state = true := by
  obtain ⟨t, ht, hi⟩ := h.listed hx
  obtain ⟨y, hy, hon⟩ := h.lot ht hi
  obtain rfl : x = y := Option.some.inj (hx.symm.trans hy)
  exact ⟨t, ht, hi, hon.clock, hon.allowed⟩

theorem Part.HandSound.of_handSame (h : p.HandSound c) (hp : p.supply.Sound k) (hq : p.QueueSound c) (hs : p.HandSame q c) :
    q.HandSound c := by
  refine ⟨?_, fun {i} hi => ?_, fun {i} hi => ?_, fun {i} hi => ?_⟩
  · have := h.one
    rw [Part.inHand] at this ⊢
    rwa [hs.told, hs.reported, hs.sold]
  · rw [hs.told] at hi
    obtain ⟨hh, x, hx, hst⟩ := h.told hi
    obtain ⟨hc, hn⟩ := hq.head hh hx
    exact ⟨hs.head (.inl hi) hh, x, hs.held (.inl hi) hh hc hn hx, hst⟩
  · rw [hs.sold] at hi
    obtain ⟨hh, x, hx, hst, hy⟩ := h.sold hi
    obtain ⟨hc, hn⟩ := hq.head hh hx
    exact ⟨hs.head (.inr (.inl hi)) hh, x, hs.held (.inr (.inl hi)) hh hc hn hx, hst, fun y hm => hy y (hs.candidates hm)⟩
  · rw [hs.reported] at hi
    obtain ⟨hh, x, hx, hst, hr⟩ := h.reported hi
    obtain ⟨hc, hn⟩ := hq.head hh hx
    refine ⟨hs.head (.inr (.inr hi)) hh, x, hs.held (.inr (.inr hi)) hh hc hn hx, hst, ?_⟩
    obtain ⟨t, ht, -, hcl, -⟩ := hp.trolley_of_lot hx
    rw [Part.trolley, ht, Option.map_some, Option.some.injEq] at hr
    exact hs.presented ht (hcl.symm.trans hc) hr

/-- A clock that a change leaves alone stays in agreement. -/
theorem Part.Sound.at (h : p.Sound k) (hs : p.SameAt q c)
    (hfits : (p.supply.queues.get c).length + q.supply.stagedOn c ≤ Config.maxQueue) : q.QueueSound c ∧ q.HandSound c :=
  ⟨(h.queue c).of_sameAt hs hfits, (h.hand c).of_handSame h.supply (h.queue c) hs.hand⟩

/-- A change that leaves every clock alone keeps the agreement when it keeps that of the Supply Unit's records. -/
theorem Part.Sound.of_sameAt {j : Nat} (h : p.Sound k) (hq : q.supply.Sound j) (hs : ∀ c, p.SameAt q c)
    (hfits : ∀ c, (p.supply.queues.get c).length + q.supply.stagedOn c ≤ Config.maxQueue) : q.Sound j :=
  ⟨hq, fun c => (h.at (hs c) (hfits c)).1, fun c => (h.at (hs c) (hfits c)).2⟩

/-- Room for the lots staged, when there are no more of them than before. -/
theorem Part.Sound.fits_of_le (h : p.Sound k) {v : Supply} (hv : v.stagedOn c ≤ p.supply.stagedOn c) :
    (p.supply.queues.get c).length + v.stagedOn c ≤ Config.maxQueue := by
  have := (h.queue c).fits
  omega

/-- With the records as they were. -/
theorem Part.SameAt.of_supply (hs : q.supply = p.supply) (ht : (q.channels.get c).headsTold = (p.channels.get c).headsTold)
    (hr : (q.channels.get c).clockToSupply = (p.channels.get c).clockToSupply)
    (hl : (q.clocks.get c).run.lot = (p.clocks.get c).run.lot)
    (hc : (q.clocks.get c).candidates ⊆ (p.clocks.get c).candidates) : p.SameAt q c := by
  refine ⟨ht, hr, hl, hc, by rw [hs], fun _ _ _ hx => by rwa [Part.lot, hs], fun _ _ hx => by rwa [Part.lot, hs] at hx,
    fun ht _ hp => ?_⟩
  rw [Part.trolley, hs, ← Part.trolley, ht, Option.map_some, hp]

theorem Part.Sound.of_supply (h : p.Sound k) (hs : q.supply = p.supply)
    (hsame : ∀ c, (q.channels.get c).headsTold = (p.channels.get c).headsTold ∧
      (q.channels.get c).clockToSupply = (p.channels.get c).clockToSupply ∧
      (q.clocks.get c).run.lot = (p.clocks.get c).run.lot ∧ (q.clocks.get c).candidates ⊆ (p.clocks.get c).candidates) :
    q.Sound k := by
  refine h.of_sameAt (hs ▸ h.supply) (fun c => ?_) fun c => hs ▸ (h.queue c).fits
  obtain ⟨h1, h2, h3, h4⟩ := hsame c
  exact .of_supply hs h1 h2 h3 h4

theorem Part.headsTold_congr {h g : Channels} (hs : g.supplyToClock = h.supplyToClock) : g.headsTold = h.headsTold := by
  simp only [Channels.headsTold, hs]

theorem Part.Sound.of_sale (h : p.Sound k) (hs : q.sale = p.sale) : q.Sound k := by
  obtain ⟨-, hsupply, hclocks, hchannels⟩ := Part.sale_eq_iff.mp hs
  refine h.of_supply hsupply fun c => ⟨Part.headsTold_congr (hchannels c).1, (hchannels c).2, (hclocks c).1, ?_⟩
  rw [(hclocks c).2]
  exact List.Subset.refl _

theorem Part.Sound.of_market (h : p.Sound k) (hs : q.market = p.market) : q.Sound k := by
  obtain ⟨hsupply, hclocks, hchannels⟩ := Part.market_eq_iff.mp hs
  refine h.of_supply hsupply fun c => ⟨Part.headsTold_congr (hchannels c).1, (hchannels c).2, ?_⟩
  rw [hclocks]
  exact ⟨rfl, List.Subset.refl _⟩

/-- A change of the records alone that leaves the queues, the lots admitted and the presented trolleys alone. -/
theorem Part.Sound.updSupply {j : Nat} {f : Supply → Supply} (h : p.Sound k) (hv : (f p.supply).Sound j)
    (hq : (f p.supply).queues = p.supply.queues)
    (hl : ∀ {i x}, x.state ≠ .staged → (Table.find (f p.supply).lots i = some x ↔ Table.find p.supply.lots i = some x))
    (hs : ∀ c, (p.supply.queues.get c).length + (f p.supply).stagedOn c ≤ Config.maxQueue)
    (ht : ∀ {n t}, Table.find p.supply.trolleys n = some t → t.state = .presented →
      (Table.find (f p.supply).trolleys n).map Trolley.state = some .presented) : (p.updSupply f).Sound j :=
  h.of_sameAt hv
    (fun c => ⟨rfl, rfl, rfl, List.Subset.refl _, congrArg (fun v => v.get c) hq, fun _ _ hx => (hl hx).mpr,
      fun _ hx => (hl hx).mp, fun hn _ hp => ht hn hp⟩) hs

end

/-! ### The FILLING train freed (R10, R12, R17) -/

section
variable {s : Supply} {k id : Nat} {t : Train}

/-- The trolleys of an ADMITTED train are none of them staged. -/
theorem Supply.Sound.trolleyCount_unstaged (h : s.Sound k) (hs : s.TablesOk) {i : Nat} {r : Train}
    (hr : Table.find s.trains i = some r) (ha : r.state = .admitted) :
    Table.count s.trolleys (fun x => decide (x.train = i) && decide (x.state ≠ .staged)) = s.trolleyCount i := by
  refine Table.count_congr hs.trolleysRise fun n x hx => ?_
  by_cases hi : x.train = i
  · obtain ⟨q, hq, hfit⟩ := h.train hx
    rw [hi, hr] at hq
    cases hq
    have : x.state ≠ .staged := fun hst => by simpa [ha] using hfit.staged.mp hst
    simp [hi, this]
  · simp [hi]

theorem Supply.Sound.freeFilling (h : s.Sound k) (hs : s.TablesOk) (ht : Table.find s.trains id = some t) (hf : t.state = .filling) :
    (s.freeFilling id).Sound k := by
  have hlot : ∀ {i x}, Table.find (s.freeFilling id).lots i = some x ↔ Table.find s.lots i = some x ∧ x.state ≠ .staged := by
    intro i x
    rw [Supply.freeFilling, Table.find_keep hs.lotsRise, Option.filter_eq_some_iff, decide_eq_true_eq]
  have htrolley : ∀ {n x}, Table.find (s.freeFilling id).trolleys n = some x ↔
      Table.find s.trolleys n = some x ∧ x.state ≠ .staged := by
    intro n x
    rw [Supply.freeFilling, Table.find_keep hs.trolleysRise, Option.filter_eq_some_iff, decide_eq_true_eq]
  have htrain : ∀ {i r}, Table.find (s.freeFilling id).trains i = some r ↔ i ≠ id ∧ Table.find s.trains i = some r := by
    intro i r
    rw [Supply.freeFilling, Table.find_del]
    by_cases hi : i = id <;> simp [hi]
  refine ⟨fun {i j r q} hr hq hrf hqf => ?_, fun {n x} hx => ?_, fun {i r} hr => ?_, fun {i x} hx => ?_, fun {i x} hx => ?_,
    fun {n x} hx => ?_, fun {n x i} hx hi => ?_, fun {c n} hc => ?_, fun {n x} hx hst => ?_⟩
  · exact h.oneFilling (htrain.mp hr).2 (htrain.mp hq).2 hrf hqf
  · obtain ⟨hx, hst⟩ := htrolley.mp hx
    obtain ⟨r, hr, hfit⟩ := h.train hx
    refine ⟨r, htrain.mpr ⟨fun hid => hst ?_, hr⟩, hfit⟩
    rw [hid, ht] at hr
    cases hr
    exact hfit.staged.mpr hf
  · obtain ⟨hi, hr⟩ := htrain.mp hr
    have hra : r.state = .admitted := by
      cases hrs : r.state with
      | admitted => rfl
      | filling => exact absurd (h.oneFilling hr ht hrs hf) hi
    rw [show (s.freeFilling id).trolleyCount i = s.trolleyCount i from
      (Table.count_keep _ _ _).trans (h.trolleyCount_unstaged hs hr hra)]
    exact h.counts hr
  · exact h.units (hlot.mp hx).1
  · obtain ⟨hx, hst⟩ := hlot.mp hx
    obtain ⟨y, hy, hi⟩ := h.listed hx
    obtain ⟨x', hx', hon⟩ := h.lot hy hi
    obtain rfl : x = x' := Option.some.inj (hx.symm.trans hx')
    exact ⟨y, htrolley.mpr ⟨hy, mt (TrolleyState.allows_staged hon.allowed).mpr hst⟩, hi⟩
  · exact h.nodup (htrolley.mp hx).1
  · obtain ⟨hx, hst⟩ := htrolley.mp hx
    obtain ⟨y, hy, hon⟩ := h.lot hx hi
    exact ⟨y, hlot.mpr ⟨hy, mt (TrolleyState.allows_staged hon.allowed).mp hst⟩, hon⟩
  · obtain ⟨x, hx, hcl, hin⟩ := h.slot hc
    exact ⟨x, htrolley.mpr ⟨hx, TrolleyState.inSlot_ne_staged hin⟩, hcl, hin⟩
  · exact h.stands (htrolley.mp hx).1 hst

end

section
variable {p : Part} {k id : Nat} {t : Train}

/-- The FILLING train freed, whatever becomes of the discard train id. -/
theorem Part.Sound.freeFilling (h : p.Sound k) (hs : p.supply.TablesOk) (ht : Table.find p.supply.trains id = some t)
    (hf : t.state = .filling) (d : Option Nat) : (p.updSupply (fun s => { s.freeFilling id with discard := d })).Sound k := by
  refine h.updSupply ((h.supply.freeFilling hs ht hf).of_same rfl rfl rfl rfl) rfl (fun {i x} hx => ?_) (fun c => ?_)
    fun {n x} hn hp => ?_
  · show Table.find (p.supply.freeFilling id).lots i = some x ↔ _
    rw [Supply.freeFilling, Table.find_keep hs.lotsRise, Option.filter_eq_some_iff, decide_eq_true_eq]
    exact and_iff_left hx
  · exact h.fits_of_le (List.filter_sublist.filter _).length_le
  · show (Table.find (p.supply.freeFilling id).trolleys n).map Trolley.state = _
    have : Table.find (p.supply.freeFilling id).trolleys n = some x := by
      rw [Supply.freeFilling, Table.find_keep hs.trolleysRise, Option.filter_eq_some_iff, decide_eq_true_eq]
      exact ⟨hn, by rw [hp]; decide⟩
    rw [this, Option.map_some, hp]

/-- The discard train id is no part of the agreement. -/
theorem Part.Sound.discard (h : p.Sound k) (d : Option Nat) : (p.updSupply (fun s => { s with discard := d })).Sound k :=
  h.updSupply (h.supply.of_same rfl rfl rfl rfl) rfl (fun _ => Iff.rfl) (fun c => (h.queue c).fits) fun hn hp => by
    rw [hn, Option.map_some, hp]

theorem Supply.filling_eq_none {s : Supply} (hs : s.TablesOk) (h : s.filling = none) {i : Nat} {r : Train}
    (hr : Table.find s.trains i = some r) : r.state = .admitted := by
  cases hst : r.state with
  | admitted => rfl
  | filling =>
    have hmem := (Table.find_iff_mem hs.trainsRise i r).mp hr
    have := List.filter_eq_nil_iff.mp (List.head?_eq_none_iff.mp h) (i, r) hmem
    simp [hst] at this

/-- R10: a FILLING train refused whole. -/
theorem refuseTrain_sound {l : LinkId} {cause : Cause} (h : p.Sound k) (hs : p.supply.TablesOk)
    (hf : p.supply.filling = some (id, t)) : (refuseTrain l id t cause p).Sound k :=
  (h.freeFilling hs (Supply.filling_find hs hf) (Supply.filling_mem hf).2 _).of_market rfl

/-! ### TRAIN HEADER (R7) -/

theorem readTrainHeader_count {b : List Byte} {id n : Nat} {c : ClockId} (h : readTrainHeader b = some (id, c, n)) :
    1 ≤ n ∧ n ≤ 16 := by
  unfold readTrainHeader at h
  split at h
  · cases h
  · split at h
    · cases h
    · split at h
      · cases h
      · next hn =>
        cases h
        simp only [Bool.or_eq_true, decide_eq_true_eq, not_or] at hn
        omega

/-- A train begins with none of its trolleys taken, where no other is FILLING. -/
theorem Part.Sound.begins (h : p.Sound k) (hs : p.supply.TablesOk) (hnew : Table.find p.supply.trains id = none)
    (hf : p.supply.filling = none) (h0 : t.taken = 0) (hst : t.state = .filling) (hn : 1 ≤ t.stated) (hn' : t.stated ≤ 16) :
    (p.updSupply (fun s => { s with trains := s.trains.put id t })).Sound k := by
  have hfind : ∀ {i r}, Table.find (Table.put p.supply.trains id t) i = some r ↔
      (i = id ∧ r = t) ∨ (i ≠ id ∧ Table.find p.supply.trains i = some r) := by
    intro i r
    by_cases hi : i = id
    · subst hi; simp [eq_comm]
    · simp [Table.find_put_ne _ _ hi, hi]
  have hother : ∀ {n x}, Table.find p.supply.trolleys n = some x → x.train ≠ id := by
    intro n x hx hid
    obtain ⟨r, hr, -⟩ := h.supply.train hx
    rw [hid, hnew] at hr
    cases hr
  have hcount : p.supply.trolleyCount id = 0 := by
    rw [Supply.trolleyCount, Table.count_congr hs.trolleysRise (g := fun _ => false) fun n x hx => by simp [hother hx]]
    simp [Table.count]
  refine h.updSupply ⟨fun {i j r q} hr hq hrf hqf => ?_, fun {n x} hx => ?_, fun {i r} hr => ?_, h.supply.units, h.supply.listed,
    h.supply.nodup, h.supply.lot, h.supply.slot, h.supply.stands⟩ rfl (fun _ => Iff.rfl) (fun c => (h.queue c).fits) fun hn hp => by
    rw [hn, Option.map_some, hp]
  · have hold : ∀ {i r}, r.state = .filling → Table.find (Table.put p.supply.trains id t) i = some r → i = id := by
      intro i r hrf hr
      rcases hfind.mp hr with ⟨hi, -⟩ | ⟨-, hr⟩
      · exact hi
      · rw [Supply.filling_eq_none hs hf hr] at hrf; cases hrf
    exact (hold hrf hr).trans (hold hqf hq).symm
  · obtain ⟨r, hr, hfit⟩ := h.supply.train hx
    exact ⟨r, hfind.mpr (.inr ⟨hother hx, hr⟩), hfit⟩
  · rcases hfind.mp hr with ⟨rfl, rfl⟩ | ⟨-, hr⟩
    · exact ⟨hn', fun _ => ⟨by omega, by rw [h0]; exact hcount⟩, fun ha => by rw [hst] at ha; cases ha⟩
    · exact h.supply.counts hr

theorem checkHeader_sound {l : LinkId} {m : Message} {c : ClockId} {n : Nat} (h : p.Sound k) (hs : p.supply.TablesOk)
    (hf : p.supply.filling = none) (hn : 1 ≤ n) (hn' : n ≤ 16) : (checkHeader l m id c n p).Sound k := by
  unfold checkHeader
  split
  · exact h.of_market rfl
  · next hnew =>
    split
    · exact (h.discard _).of_market rfl
    · exact h.begins hs (by simpa [Table.has] using hnew) hf rfl rfl hn hn'

end

end Sys2Proof.Machine
end

section
/-! The manifests keep the Supply Unit in agreement: TRAIN HEADER and TROLLEY ENTRY (R7 to R11). -/

namespace Sys2Proof.Machine

section
variable {p : Part} {s : Supply} {k id : Nat} {t : Train} {l : LinkId} {m : Message}

/-- With the FILLING train freed no train is FILLING. -/
theorem Supply.Sound.filling_freeFilling (h : s.Sound k) (hs : s.TablesOk) (hf : s.filling = some (id, t)) :
    (s.freeFilling id).filling = none := by
  rw [Supply.filling, List.head?_eq_none_iff, List.filter_eq_nil_iff]
  intro e he hst
  have hfind := (Table.find_iff_mem (hs.freeFilling id).trainsRise e.1 e.2).mpr he
  rw [Supply.freeFilling, Table.find_del] at hfind
  split at hfind
  · cases hfind
  · next hne => exact hne (h.oneFilling hfind (Supply.filling_find hs hf) (by simpa using hst) (Supply.filling_mem hf).2)

theorem takeTrainHeader_sound (h : p.Sound k) (hs : p.supply.TablesOk) : (takeTrainHeader l m p).Sound k := by
  cases hr : readTrainHeader m.body with
  | none =>
    have : takeTrainHeader l m p = p.refuseMsg l m .malformed := by unfold takeTrainHeader; rw [hr]
    rw [this]
    exact h.of_market rfl
  | some x =>
    obtain ⟨id, c, n⟩ := x
    obtain ⟨hn, hn'⟩ := readTrainHeader_count hr
    have hs' : (p.updSupply (fun s => { s with discard := none })).supply.TablesOk := hs.of_keys rfl rfl rfl
    cases hf : p.supply.filling with
    | none =>
      rw [takeTrainHeader_idle hr hf]
      exact checkHeader_sound (h.discard none) hs' hf hn hn'
    | some e =>
      obtain ⟨old, t⟩ := e
      rw [takeTrainHeader_filling hr hf]
      refine checkHeader_sound (refuseTrain_sound (h.discard none) hs' hf) ?_ ?_ hn hn'
      · exact (hs.freeFilling old).of_keys rfl rfl rfl
      · exact h.supply.filling_freeFilling hs hf

/-! ### An entry staged (R8) -/

/-- Agreement with a slack is agreement when every FILLING train is short of its stated entries. -/
theorem Supply.Sound.tighten (h : s.Sound k)
    (hf : ∀ {i r}, Table.find s.trains i = some r → r.state = .filling → r.taken < r.stated) : s.Sound 0 :=
  ⟨h.oneFilling, h.train,
    fun hr => ⟨(h.counts hr).stated, fun hst => ⟨hf hr hst, ((h.counts hr).filling hst).2⟩, (h.counts hr).admitted⟩,
    h.units, h.listed, h.nodup, h.lot, h.slot, h.stands⟩

/-- A table once the records of the entries have been put. -/
theorem find_foldl_put {g : LotEntry → Lot} {es : List LotEntry} (hd : (es.map LotEntry.lot).Nodup) {t : Table Lot} {i : Nat}
    {x : Lot} (hnew : ∀ e ∈ es, Table.find t e.lot = none) :
    Table.find (es.foldl (fun ls e => Table.put ls e.lot (g e)) t) i = some x ↔
      (∃ e ∈ es, e.lot = i ∧ g e = x) ∨ Table.find t i = some x := by
  induction es generalizing t with
  | nil => simp
  | cons e rest ih =>
    simp only [List.map_cons, List.nodup_cons] at hd
    have hne : ∀ e' ∈ rest, e'.lot ≠ e.lot := fun e' he' heq => hd.1 (heq ▸ List.mem_map_of_mem he')
    rw [List.foldl_cons, ih hd.2 fun e' he' => by
      rw [Table.find_put_ne _ _ (hne e' he')]; exact hnew e' (List.mem_cons_of_mem _ he')]
    simp only [List.mem_cons, exists_eq_or_imp, or_assoc]
    by_cases hi : i = e.lot
    · subst hi
      have hnone : Table.find t e.lot = none := hnew e List.mem_cons_self
      have hrest : ¬ ∃ e' ∈ rest, e'.lot = e.lot ∧ g e' = x := fun ⟨e', he', heq, _⟩ => hne e' he' heq
      simp [hnone, hrest]
    · simp [Table.find_put_ne _ _ hi, Ne.symm hi]

theorem count_foldl_put {g : LotEntry → Lot} {f : Lot → Bool} {es : List LotEntry} (hd : (es.map LotEntry.lot).Nodup)
    {t : Table Lot} (hnew : ∀ e ∈ es, Table.find t e.lot = none) :
    Table.count (es.foldl (fun ls e => Table.put ls e.lot (g e)) t) f = Table.count t f + (es.filter (fun e => f (g e))).length := by
  induction es generalizing t with
  | nil => rfl
  | cons e rest ih =>
    simp only [List.map_cons, List.nodup_cons] at hd
    have hne : ∀ e' ∈ rest, e'.lot ≠ e.lot := fun e' he' heq => hd.1 (heq ▸ List.mem_map_of_mem he')
    rw [List.foldl_cons, ih hd.2 fun e' he' => by
      rw [Table.find_put_ne _ _ (hne e' he')]; exact hnew e' (List.mem_cons_of_mem _ he'),
      Table.count_put_new (hnew e List.mem_cons_self)]
    by_cases hf : f (g e) = true <;> simp [hf]; omega

variable {trolley : Nat} {es : List LotEntry}

theorem stageEntry_lots {c : ClockId} (he : s.EntryFits t trolley es) {i : Nat} {x : Lot} (hc : t.clock = c) :
    Table.find (stageEntry id t trolley es s).lots i = some x ↔
      (∃ e ∈ es, e.lot = i ∧ e.staged trolley c = x) ∨ Table.find s.lots i = some x :=
  hc ▸ find_foldl_put he.lotsDiffer he.newLots

/-- Staging an entry of the FILLING train keeps the records in agreement, but that the train may have all its entries now. -/
theorem Supply.Sound.stageEntry (h : s.Sound 0) (ht : Table.find s.trains id = some t)
    (hf : t.state = .filling) (he : s.EntryFits t trolley es) : (stageEntry id t trolley es s).Sound 1 := by
  have htrain : ∀ {i r}, Table.find (Machine.stageEntry id t trolley es s).trains i = some r ↔
      (i = id ∧ r = { t with taken := t.taken + 1, clamped := t.clamped + (es.filter LotEntry.clamps).length }) ∨
      (i ≠ id ∧ Table.find s.trains i = some r) := by
    intro i r
    simp only [Machine.stageEntry]
    by_cases hi : i = id
    · subst hi; simp [eq_comm]
    · simp [Table.find_put_ne _ _ hi, hi]
  have htrolley : ∀ {n x}, Table.find (Machine.stageEntry id t trolley es s).trolleys n = some x ↔
      (n = trolley ∧ x = ⟨id, t.clock, t.taken + 1, es.map LotEntry.lot, .staged, []⟩) ∨
      (n ≠ trolley ∧ Table.find s.trolleys n = some x) := by
    intro n x
    simp only [Machine.stageEntry]
    by_cases hn : n = trolley
    · subst hn; simp [eq_comm]
    · simp [Table.find_put_ne _ _ hn, hn]
  have hold : ∀ {n x}, Table.find s.trolleys n = some x → n ≠ trolley := by
    rintro n x hx rfl
    rw [he.newTrolley] at hx
    cases hx
  have hlot : ∀ {i x}, Table.find (Machine.stageEntry id t trolley es s).lots i = some x ↔ _ := stageEntry_lots he rfl
  have hcount : ∀ i, (Machine.stageEntry id t trolley es s).trolleyCount i = s.trolleyCount i + if id = i then 1 else 0 := by
    intro i
    refine (Table.count_put_new he.newTrolley _ _).trans ?_
    simp [Supply.trolleyCount]
  refine ⟨fun {i j r q} hr hq hrf hqf => ?_, fun {n x} hx => ?_, fun {i r} hr => ?_, fun {i x} hx => ?_, fun {i x} hx => ?_,
    fun {n x} hx => ?_, fun {n x i} hx hi => ?_, fun {c n} hc => ?_, fun {n x} hx hst => ?_⟩
  · have hone : ∀ {i r}, r.state = .filling → Table.find (Machine.stageEntry id t trolley es s).trains i = some r → i = id := by
      intro i r hrf hr
      rcases htrain.mp hr with ⟨hi, -⟩ | ⟨-, hr⟩
      · exact hi
      · exact h.oneFilling hr ht hrf hf
    exact (hone hrf hr).trans (hone hqf hq).symm
  · rcases htrolley.mp hx with ⟨rfl, rfl⟩ | ⟨-, hx⟩
    · exact ⟨_, htrain.mpr (.inl ⟨rfl, rfl⟩), rfl, Nat.le_add_left 1 _, le_rfl, by simp [hf]⟩
    · obtain ⟨r, hr, hfit⟩ := h.train hx
      by_cases hi : x.train = id
      · rw [hi, ht] at hr
        cases hr
        exact ⟨_, htrain.mpr (.inl ⟨hi, rfl⟩), hfit.clock, hfit.first, hfit.last.trans (Nat.le_succ _), hfit.staged⟩
      · exact ⟨r, htrain.mpr (.inr ⟨hi, hr⟩), hfit⟩
  · rcases htrain.mp hr with ⟨rfl, rfl⟩ | ⟨hi, hr⟩
    · have hc := h.counts ht
      obtain ⟨hlt, htaken⟩ := hc.filling hf
      refine ⟨hc.stated, fun _ => ⟨Nat.succ_lt_succ hlt, ?_⟩, fun ha => ?_⟩
      · rw [hcount, if_pos rfl, htaken]
      · rw [hf] at ha; cases ha
    · have hc := h.counts hr
      rw [hcount, if_neg (Ne.symm hi)]
      exact ⟨hc.stated, fun hst => ⟨(hc.filling hst).1.trans (Nat.lt_succ_self _), (hc.filling hst).2⟩, hc.admitted⟩
  · rcases hlot.mp hx with ⟨e, -, -, rfl⟩ | hx
    · rfl
    · exact h.units hx
  · rcases hlot.mp hx with ⟨e, hm, rfl, rfl⟩ | hx
    · exact ⟨_, htrolley.mpr (.inl ⟨rfl, rfl⟩), List.mem_map_of_mem hm⟩
    · obtain ⟨y, hy, hi⟩ := h.listed hx
      exact ⟨y, htrolley.mpr (.inr ⟨hold hy, hy⟩), hi⟩
  · rcases htrolley.mp hx with ⟨rfl, rfl⟩ | ⟨-, hx⟩
    · exact he.lotsDiffer
    · exact h.nodup hx
  · rcases htrolley.mp hx with ⟨rfl, rfl⟩ | ⟨-, hx⟩
    · obtain ⟨e, hm, rfl⟩ := List.mem_map.mp hi
      exact ⟨_, hlot.mpr (.inl ⟨e, hm, rfl, rfl⟩), rfl, rfl, rfl⟩
    · obtain ⟨y, hy, hon⟩ := h.lot hx hi
      exact ⟨y, hlot.mpr (.inr hy), hon⟩
  · obtain ⟨x, hx, hcl, hin⟩ := h.slot hc
    exact ⟨x, htrolley.mpr (.inr ⟨hold hx, hx⟩), hcl, hin⟩
  · rcases htrolley.mp hx with ⟨rfl, rfl⟩ | ⟨-, hx⟩
    · rcases hst with hst | hst <;> cases hst
    · exact h.stands hx hst

/-- Staging an entry keeps the queues within their room. -/
theorem Part.Sound.stageEntry (h : p.Sound 0) (hs : p.supply.TablesOk) (ht : Table.find p.supply.trains id = some t)
    (hf : t.state = .filling) (he : p.supply.EntryFits t trolley es) :
    (p.updSupply (Machine.stageEntry id t trolley es)).Sound 1 := by
  have hv := h.supply.stageEntry ht hf he
  have hlots : ∀ {i x}, x.state ≠ .staged → (Table.find (Machine.stageEntry id t trolley es p.supply).lots i = some x ↔
      Table.find p.supply.lots i = some x) := by
    intro i x hx
    rw [stageEntry_lots he rfl]
    refine or_iff_right ?_
    rintro ⟨e, -, -, rfl⟩
    exact hx rfl
  have hfits : ∀ c, (p.supply.queues.get c).length + (Machine.stageEntry id t trolley es p.supply).stagedOn c ≤ Config.maxQueue := by
    intro c
    have hstaged : (Machine.stageEntry id t trolley es p.supply).stagedOn c =
        p.supply.stagedOn c + (es.filter (fun _ => decide (t.clock = c))).length :=
      count_foldl_put he.lotsDiffer he.newLots
    by_cases hc : t.clock = c
    · have hall : p.supply.stagedOn c ≤ (p.supply.lots.keep (fun x => decide (x.state = .staged))).length :=
        Table.count_le hs.lotsRise fun _ x _ hx => (Bool.and_eq_true_iff.mp hx).1
      have := he.queueRoom
      simp only [hc, decide_true, List.filter_true] at hstaged this
      omega
    · simp only [hc, decide_false, List.filter_false, List.length_nil] at hstaged
      exact h.fits_of_le hstaged.le
  refine h.updSupply hv rfl hlots hfits fun {n x} hn hp => ?_
  have hne : n ≠ trolley := by
    rintro rfl
    rw [he.newTrolley] at hn
    cases hn
  rw [Machine.stageEntry, Table.find_put_ne _ _ hne, hn, Option.map_some, hp]

end

end Sys2Proof.Machine
end

section
/-! Admission keeps the Supply Unit in agreement (R9). -/

namespace Sys2Proof.Machine

/-! ### The lots of a train -/

section
variable {s : Supply} {id : Nat} {t : Train}

theorem Supply.mem_trolleysOf {e : Nat × Trolley} (hs : s.TablesOk) :
    e ∈ s.trolleysOf id ↔ Table.find s.trolleys e.1 = some e.2 ∧ e.2.train = id ∧ e.2.place < 17 := by
  simp only [Supply.trolleysOf, List.mem_flatMap, List.mem_range, List.mem_filter, Bool.and_eq_true, decide_eq_true_eq]
  rw [Table.find_iff_mem hs.trolleysRise]
  constructor
  · rintro ⟨i, hi, hm, htr, rfl⟩; exact ⟨hm, htr, hi⟩
  · rintro ⟨hm, htr, hi⟩; exact ⟨_, hi, hm, htr, rfl⟩

/-- A train's lots are those of the lists of its trolleys. -/
theorem Supply.Sound.mem_lotsOf (h : s.Sound 1) (hs : s.TablesOk) {i : Nat} :
    i ∈ s.lotsOf id ↔ ∃ n x, Table.find s.trolleys n = some x ∧ x.train = id ∧ i ∈ x.lots := by
  simp only [Supply.lotsOf, List.mem_flatMap, Supply.mem_trolleysOf hs]
  constructor
  · rintro ⟨e, ⟨he, htr, -⟩, hi⟩; exact ⟨e.1, e.2, he, htr, hi⟩
  · rintro ⟨n, x, hx, htr, hi⟩
    refine ⟨(n, x), ⟨hx, htr, ?_⟩, hi⟩
    obtain ⟨r, hr, hfit⟩ := h.train hx
    have hc := h.counts hr
    have hlast := hfit.last
    have hstated := hc.stated
    show x.place < 17
    cases hst : r.state with
    | filling =>
      have := (hc.filling hst).1
      omega
    | admitted =>
      have := (hc.admitted hst).1
      omega

/-- A lot lies on one trolley. -/
theorem Supply.Sound.lots_disjoint {k : Nat} (h : s.Sound k) {n n' i : Nat} {x x' : Trolley} (hx : Table.find s.trolleys n = some x)
    (hx' : Table.find s.trolleys n' = some x') (hi : i ∈ x.lots) (hi' : i ∈ x'.lots) : n = n' := by
  obtain ⟨y, hy, hon⟩ := h.lot hx hi
  obtain ⟨y', hy', hon'⟩ := h.lot hx' hi'
  obtain rfl : y = y' := Option.some.inj (hy.symm.trans hy')
  exact hon.trolley.symm.trans hon'.trolley

theorem Supply.Sound.nodup_lotsOf (h : s.Sound 1) (hs : s.TablesOk) : (s.lotsOf id).Nodup := by
  have htrolleys : (s.trolleysOf id).Nodup := by
    refine List.nodup_flatMap.mpr ⟨fun i _ => (Table.nodup hs.trolleysRise).filter _, ?_⟩
    refine List.nodup_range.imp fun {i j} hij e hi hj => ?_
    simp only [List.mem_filter, Bool.and_eq_true, decide_eq_true_eq] at hi hj
    exact hij (hi.2.2.symm.trans hj.2.2)
  refine List.nodup_flatMap.mpr ⟨fun e he => h.nodup ((Supply.mem_trolleysOf hs).mp he).1, ?_⟩
  refine htrolleys.imp_of_mem fun {a b} ha hb hab i hia hib => ?_
  have hfa := ((Supply.mem_trolleysOf hs).mp ha).1
  have hfb := ((Supply.mem_trolleysOf hs).mp hb).1
  have hkey := h.lots_disjoint hfa hfb hia hib
  rw [hkey, hfb] at hfa
  exact hab (Prod.ext hkey (Option.some.inj hfa).symm)

/-! ### Admission of a FILLING train -/

/-- R9: the record of a lot once its train is admitted. -/
def Lot.admitted (x : Lot) : Lot := if x.state = .staged then { x with state := .announced } else x

/-- R9: the record of a trolley once its train is admitted. -/
def Trolley.admitted (x : Trolley) : Trolley := if x.state = .staged then { x with state := .announced } else x

theorem Lot.admitted_staged {x : Lot} (h : x.state = .staged) : x.admitted = { x with state := .announced } := if_pos h
theorem Lot.admitted_other {x : Lot} (h : x.state ≠ .staged) : x.admitted = x := if_neg h
theorem Trolley.admitted_staged {x : Trolley} (h : x.state = .staged) : x.admitted = { x with state := .announced } := if_pos h
theorem Trolley.admitted_other {x : Trolley} (h : x.state ≠ .staged) : x.admitted = x := if_neg h

/-- Only the state of a record changes. -/
@[simp] theorem Lot.admitted_trolley (x : Lot) : x.admitted.trolley = x.trolley := by unfold Lot.admitted; split <;> rfl
@[simp] theorem Lot.admitted_clock (x : Lot) : x.admitted.clock = x.clock := by unfold Lot.admitted; split <;> rfl
@[simp] theorem Lot.admitted_announced (x : Lot) : x.admitted.announced = x.announced := by unfold Lot.admitted; split <;> rfl
@[simp] theorem Lot.admitted_remaining (x : Lot) : x.admitted.remaining = x.remaining := by unfold Lot.admitted; split <;> rfl
@[simp] theorem Lot.admitted_sold (x : Lot) : x.admitted.sold = x.sold := by unfold Lot.admitted; split <;> rfl
@[simp] theorem Trolley.admitted_train (x : Trolley) : x.admitted.train = x.train := by unfold Trolley.admitted; split <;> rfl
@[simp] theorem Trolley.admitted_clock (x : Trolley) : x.admitted.clock = x.clock := by unfold Trolley.admitted; split <;> rfl
@[simp] theorem Trolley.admitted_place (x : Trolley) : x.admitted.place = x.place := by unfold Trolley.admitted; split <;> rfl
@[simp] theorem Trolley.admitted_lots (x : Trolley) : x.admitted.lots = x.lots := by unfold Trolley.admitted; split <;> rfl

theorem Lot.admitted_ne_staged (x : Lot) : x.admitted.state ≠ .staged := by
  unfold Lot.admitted
  split
  · simp
  · assumption

theorem Trolley.admitted_ne_staged (x : Trolley) : x.admitted.state ≠ .staged := by
  unfold Trolley.admitted
  split
  · simp
  · assumption

theorem Trolley.admitted_inSlot {x : Trolley} (h : x.admitted.state.inSlot) : x.admitted = x := by
  by_cases hs : x.state = .staged
  · rw [Trolley.admitted_staged hs] at h
    rcases h with h | h <;> cases h
  · exact Trolley.admitted_other hs

theorem Supply.admitTrain_lots (s : Supply) (i : Nat) :
    Table.find (s.admitTrain id t).lots i = (Table.find s.lots i).map Lot.admitted := Table.find_mapAll s.lots Lot.admitted i

theorem Supply.admitTrain_trolleys (s : Supply) (n : Nat) :
    Table.find (s.admitTrain id t).trolleys n = (Table.find s.trolleys n).map Trolley.admitted :=
  Table.find_mapAll s.trolleys Trolley.admitted n

/-- The trolleys that are staged are those of the FILLING train. -/
theorem Supply.Sound.staged_iff {k n : Nat} {x : Trolley} (h : s.Sound k) (ht : Table.find s.trains id = some t)
    (hf : t.state = .filling) (hx : Table.find s.trolleys n = some x) : x.state = .staged ↔ x.train = id := by
  obtain ⟨r, hr, hfit⟩ := h.train hx
  rw [hfit.staged]
  constructor
  · exact fun hst => h.oneFilling hr ht hst hf
  · intro hid
    rw [hid, ht] at hr
    cases hr
    exact hf

/-- The lots that are staged are those of the FILLING train, for its clock. -/
theorem Supply.Sound.staged_lot {i : Nat} {y : Lot} (h : s.Sound 1) (hs : s.TablesOk) (ht : Table.find s.trains id = some t)
    (hf : t.state = .filling) (hy : Table.find s.lots i = some y) (hst : y.state = .staged) :
    i ∈ s.lotsOf id ∧ y.clock = t.clock := by
  obtain ⟨x, hx, hi, hcl, hallow⟩ := h.trolley_of_lot hy
  have hid := (h.staged_iff ht hf hx).mp ((TrolleyState.allows_staged hallow).mp hst)
  obtain ⟨r, hr, hfit⟩ := h.train hx
  rw [hid, ht] at hr
  cases hr
  exact ⟨(h.mem_lotsOf hs).mpr ⟨_, x, hx, hid, hi⟩, hcl.trans hfit.clock⟩

/-- The lots of the FILLING train are staged, for its clock. -/
theorem Supply.Sound.lotsOf_staged {i : Nat} (h : s.Sound 1) (hs : s.TablesOk) (ht : Table.find s.trains id = some t)
    (hf : t.state = .filling) (hi : i ∈ s.lotsOf id) :
    ∃ y, Table.find s.lots i = some y ∧ y.state = .staged ∧ y.clock = t.clock := by
  obtain ⟨n, x, hx, hid, hix⟩ := (h.mem_lotsOf hs).mp hi
  obtain ⟨y, hy, hon⟩ := h.lot hx hix
  have hst := (TrolleyState.allows_staged hon.allowed).mpr ((h.staged_iff ht hf hx).mpr hid)
  exact ⟨y, hy, hst, (h.staged_lot hs ht hf hy hst).2⟩

/-- A FILLING train that has all its entries is admitted. -/
theorem Supply.Sound.admitTrain (h : s.Sound 1) (ht : Table.find s.trains id = some t)
    (hf : t.state = .filling) (hall : t.taken = t.stated) (hpos : 1 ≤ t.stated) : (s.admitTrain id t).Sound 0 := by
  have htrain : ∀ {i r}, Table.find (s.admitTrain id t).trains i = some r ↔
      (i = id ∧ r = { t with state := .admitted, live := t.stated }) ∨ (i ≠ id ∧ Table.find s.trains i = some r) := by
    intro i r
    simp only [Supply.admitTrain]
    by_cases hi : i = id
    · subst hi; simp [eq_comm]
    · simp [Table.find_put_ne _ _ hi, hi]
  have hlot : ∀ {i y}, Table.find (s.admitTrain id t).lots i = some y ↔ ∃ x, Table.find s.lots i = some x ∧ x.admitted = y :=
    fun {i y} => by rw [Supply.admitTrain_lots, Option.map_eq_some_iff]
  have htrolley : ∀ {n y}, Table.find (s.admitTrain id t).trolleys n = some y ↔
      ∃ x, Table.find s.trolleys n = some x ∧ x.admitted = y :=
    fun {n y} => by rw [Supply.admitTrain_trolleys, Option.map_eq_some_iff]
  have hother : ∀ {i r}, i ≠ id → Table.find s.trains i = some r → r.state = .admitted := by
    intro i r hi hr
    cases hst : r.state with
    | admitted => rfl
    | filling => exact absurd (h.oneFilling hr ht hst hf) hi
  have hcount : ∀ i, (s.admitTrain id t).trolleyCount i = s.trolleyCount i := fun i => by
    refine (Table.count_mapAll s.trolleys Trolley.admitted (fun x => decide (x.train = i))).trans ?_
    exact congrArg (Table.count s.trolleys) (funext fun x => congrArg (fun r => decide (r = i)) x.admitted_train)
  refine ⟨fun {i j r q} hr hq hrf hqf => ?_, fun {n y} hy => ?_, fun {i r} hr => ?_, fun {i y} hy => ?_, fun {i y} hy => ?_,
    fun {n y} hy => ?_, fun {n y i} hy hi => ?_, fun {c n} hc => ?_, fun {n y} hy hst => ?_⟩
  · have hone : ∀ {i r}, Table.find (s.admitTrain id t).trains i = some r → r.state = .admitted := by
      intro i r hr
      rcases htrain.mp hr with ⟨-, rfl⟩ | ⟨hi, hr⟩
      · rfl
      · exact hother hi hr
    rw [hone hr] at hrf
    cases hrf
  · obtain ⟨x, hx, rfl⟩ := htrolley.mp hy
    obtain ⟨r, hr, hfit⟩ := h.train hx
    by_cases hid : x.train = id
    · rw [hid, ht] at hr
      cases hr
      refine ⟨_, htrain.mpr (.inl ⟨by simpa using hid, rfl⟩), ?_, ?_, ?_, ?_⟩
      · simpa using hfit.clock
      · simpa using hfit.first
      · simpa using hfit.last
      · simp [Trolley.admitted_ne_staged]
    · rw [Trolley.admitted_other (mt (h.staged_iff ht hf hx).mp hid)]
      exact ⟨r, htrain.mpr (.inr ⟨hid, hr⟩), hfit⟩
  · rw [hcount]
    rcases htrain.mp hr with ⟨rfl, rfl⟩ | ⟨hi, hr⟩
    · have hc := h.counts ht
      exact ⟨hc.stated, fun hst => (by cases hst), fun _ => ⟨hall, hpos, (hc.filling hf).2.trans hall⟩⟩
    · have hc := h.counts hr
      have ha := hother hi hr
      exact ⟨hc.stated, fun hst => (by rw [ha] at hst; cases hst), hc.admitted⟩
  · obtain ⟨x, hx, rfl⟩ := hlot.mp hy
    simpa using h.units hx
  · obtain ⟨x, hx, rfl⟩ := hlot.mp hy
    obtain ⟨w, hw, hi⟩ := h.listed hx
    exact ⟨w.admitted, htrolley.mpr ⟨w, by simpa using hw, rfl⟩, by simpa using hi⟩
  · obtain ⟨x, hx, rfl⟩ := htrolley.mp hy
    simpa using h.nodup hx
  · obtain ⟨x, hx, rfl⟩ := htrolley.mp hy
    obtain ⟨w, hw, hon⟩ := h.lot hx (by simpa using hi)
    refine ⟨w.admitted, hlot.mpr ⟨w, hw, rfl⟩, by simpa using hon.trolley, by simpa using hon.clock, ?_⟩
    by_cases hst : x.state = .staged
    · rw [Trolley.admitted_staged hst, Lot.admitted_staged ((TrolleyState.allows_staged hon.allowed).mpr hst)]
      rfl
    · rw [Trolley.admitted_other hst, Lot.admitted_other (mt (TrolleyState.allows_staged hon.allowed).mp hst)]
      exact hon.allowed
  · obtain ⟨x, hx, hcl, hin⟩ := h.slot hc
    exact ⟨x, htrolley.mpr ⟨x, hx, Trolley.admitted_other (TrolleyState.inSlot_ne_staged hin)⟩, hcl, hin⟩
  · obtain ⟨x, hx, rfl⟩ := htrolley.mp hy
    have hsame := Trolley.admitted_inSlot hst
    rw [hsame] at hst ⊢
    exact h.stands hx hst

/-- No lot is staged once the FILLING train is admitted. -/
theorem Supply.admitTrain_stagedOn (s : Supply) (c : ClockId) : (s.admitTrain id t).stagedOn c = 0 := by
  have : (s.admitTrain id t).stagedOn c =
      Table.count s.lots (fun x => decide (x.admitted.state = .staged) && decide (x.admitted.clock = c)) :=
    Table.count_mapAll s.lots Lot.admitted (fun x => decide (x.state = .staged) && decide (x.clock = c))
  rw [this]
  simp [Table.count, Lot.admitted_ne_staged]

/-- The train's lots are as many as the lots staged, or fewer. -/
theorem Supply.Sound.length_lotsOf_le (h : s.Sound 1) (hs : s.TablesOk) (ht : Table.find s.trains id = some t)
    (hf : t.state = .filling) : (s.lotsOf id).length ≤ s.stagedOn t.clock := by
  have hsub : s.lotsOf id ⊆
      (s.lots.filter (fun e => decide (e.2.state = .staged) && decide (e.2.clock = t.clock))).map (·.1) := by
    intro i hi
    obtain ⟨y, hy, hst, hcl⟩ := h.lotsOf_staged hs ht hf hi
    refine List.mem_map.mpr ⟨(i, y), List.mem_filter.mpr ⟨Table.mem_of_find hy, ?_⟩, rfl⟩
    simp [hst, hcl]
  have := ((h.nodup_lotsOf hs (id := id)).subperm hsub).length_le
  rwa [List.length_map] at this

end

/-- Admission with the append to the queue. -/
theorem Part.Sound.admitTrain {p : Part} {id : Nat} {t : Train} (h : p.Sound 1) (hs : p.supply.TablesOk)
    (ht : Table.find p.supply.trains id = some t) (hf : t.state = .filling) (hall : t.taken = t.stated) (hpos : 1 ≤ t.stated) :
    (p.updSupply (fun s => s.admitTrain id t)).Sound 0 := by
  have hheld : ∀ {i x}, x.state ≠ .staged → Table.find p.supply.lots i = some x →
      Table.find (p.supply.admitTrain id t).lots i = some x := fun hst hx => by
    rw [Supply.admitTrain_lots, hx, Option.map_some, Lot.admitted_other hst]
  have hpresented : ∀ {n x}, Table.find p.supply.trolleys n = some x → x.state = .presented →
      (Table.find (p.supply.admitTrain id t).trolleys n).map Trolley.state = some .presented := fun hx hp => by
    rw [Supply.admitTrain_trolleys, hx, Option.map_some, Trolley.admitted_other (by rw [hp]; decide), Option.map_some, hp]
  have hqueue : ∀ c, (p.supply.admitTrain id t).queues.get c =
      if c = t.clock then p.supply.queues.get c ++ p.supply.lotsOf id else p.supply.queues.get c := fun c => PerClock.get_upd _ _ _ _
  refine ⟨h.supply.admitTrain ht hf hall hpos, fun c => ?_, fun c => ?_⟩
  · have hq := h.queue c
    by_cases hc : c = t.clock
    · have hqc := (hqueue c).trans (if_pos hc)
      refine ⟨?_, ?_, fun {i} hi => ?_, fun {i y} hy hcl _ hd => ?_⟩
      · refine hqc ▸ hq.nodup.append (h.supply.nodup_lotsOf hs) fun i hi hi' => ?_
        obtain ⟨x, hx, -, hst, -⟩ := hq.queued hi
        obtain ⟨y, hy, hst', -⟩ := h.supply.lotsOf_staged hs ht hf hi'
        obtain rfl : x = y := Option.some.inj (hx.symm.trans hy)
        exact hst hst'
      · have hle := h.supply.length_lotsOf_le hs ht hf
        have hfits := hq.fits
        rw [Part.updSupply_supply, hqc, Supply.admitTrain_stagedOn, List.length_append]
        rw [← hc] at hle
        omega
      · rw [Part.updSupply_supply, hqc, List.mem_append] at hi
        rcases hi with hi | hi
        · obtain ⟨x, hx, hcl, hst, hd⟩ := hq.queued hi
          exact ⟨x, hheld hst hx, hcl, hst, hd⟩
        · obtain ⟨y, hy, hst, hcl⟩ := h.supply.lotsOf_staged hs ht hf hi
          refine ⟨y.admitted, by rw [Part.lot, Part.updSupply_supply, Supply.admitTrain_lots, hy, Option.map_some], ?_,
            y.admitted_ne_staged, fun hd => ?_⟩
          · rw [Lot.admitted_clock, hcl, hc]
          · rw [Lot.admitted_staged hst] at hd
            cases hd
      · rw [Part.lot, Part.updSupply_supply, Supply.admitTrain_lots, Option.map_eq_some_iff] at hy
        obtain ⟨x, hx, rfl⟩ := hy
        rw [Part.updSupply_supply, hqc, List.mem_append]
        by_cases hst : x.state = .staged
        · exact .inr (h.supply.staged_lot hs ht hf hx hst).1
        · rw [Lot.admitted_other hst] at hcl hd
          exact .inl (hq.waits hx hcl hst hd)
    · have hqc := (hqueue c).trans (if_neg hc)
      refine ⟨hqc ▸ hq.nodup, ?_, fun {i} hi => ?_, fun {i y} hy hcl _ hd => ?_⟩
      · have hfits := hq.fits
        rw [Part.updSupply_supply, hqc, Supply.admitTrain_stagedOn]
        omega
      · rw [Part.updSupply_supply, hqc] at hi
        obtain ⟨x, hx, hcl, hst, hd⟩ := hq.queued hi
        exact ⟨x, hheld hst hx, hcl, hst, hd⟩
      · rw [Part.lot, Part.updSupply_supply, Supply.admitTrain_lots, Option.map_eq_some_iff] at hy
        obtain ⟨x, hx, rfl⟩ := hy
        rw [Part.updSupply_supply, hqc]
        by_cases hst : x.state = .staged
        · exact absurd (hcl.symm.trans (Lot.admitted_clock x ▸ (h.supply.staged_lot hs ht hf hx hst).2)) hc
        · rw [Lot.admitted_other hst] at hcl hd
          exact hq.waits hx hcl hst hd
  · refine (h.hand c).of_handSame h.supply (h.queue c) ⟨rfl, rfl, rfl, List.Subset.refl _, fun {i} _ hi => ?_,
      fun _ _ _ hst hx => hheld hst hx, fun hx _ hp => hpresented hx hp⟩
    rw [Part.updSupply_supply, hqueue c]
    split
    · rw [List.head?_append, hi]; rfl
    · exact hi

/-! ### TROLLEY ENTRY -/

/-- Every entry keeps the Supply Unit in agreement. -/
theorem takeTrolleyEntry_sound {p : Part} {l : LinkId} {m : Message} (h : p.Sound 0) (hs : p.supply.TablesOk) :
    (takeTrolleyEntry l m p).Sound 0 := by
  cases hf : p.supply.filling with
  | none =>
    rw [takeTrolleyEntry_idle hf]
    split
    · exact h
    · exact h.of_market rfl
  | some e =>
    obtain ⟨id, t⟩ := e
    by_cases hid : fieldAt m.body 0 2 = id
    · cases hp : entryProblem p.supply t (fieldAt m.body 2 2) (fieldAt m.body 4 1) (readLotEntries m.body) with
      | some cause =>
        rw [takeTrolleyEntry_failed hf hid hp]
        exact refuseTrain_sound h hs hf
      | none =>
        have hfits := entryFits_of_noProblem hp
        have ht := Supply.filling_find hs hf
        have hst := (Supply.filling_mem hf).2
        have hstaged := h.stageEntry hs ht hst hfits
        have hfind := stageEntry_find id t (fieldAt m.body 2 2) (readLotEntries m.body) p.supply
        rw [takeTrolleyEntry_staged hf hid hp, afterEntry_eq hfind]
        split
        · next hall =>
          have hadmitted := hstaged.admitTrain (hs.stageEntry ht hfits) hfind hst hall (Nat.le_trans (Nat.le_add_left 1 _) hall.le)
          simp only [admitTrain]
          split
          · exact hadmitted.of_market rfl
          · exact hadmitted.of_sale (Part.supplyEvent_sale _ _ _)
        · next hmore =>
          refine ⟨hstaged.supply.tighten fun {i r} hr hrf => ?_, hstaged.queue, hstaged.hand⟩
          have hi := hstaged.supply.oneFilling hr hfind hrf hst
          subst hi
          rw [Part.updSupply_supply, hfind] at hr
          cases hr
          have := ((hstaged.supply.counts hfind).filling hst).1
          have hne : t.taken + 1 ≠ t.stated := hmore
          show t.taken + 1 < t.stated
          have hlt : t.taken + 1 < t.stated + 1 := this
          omega
    · rw [takeTrolleyEntry_other hf hid]
      exact refuseTrain_sound h hs hf

end Sys2Proof.Machine
end

section
/-! Arrivals, withdrawals, departures and lot done reports keep the Supply Unit in agreement (R13 to R20). -/

namespace Sys2Proof.Machine

/-! ### Records changed in place -/

/-- A change of a trolley's record that leaves what it is, and whether it is staged. -/
structure Trolley.Restated (t u : Trolley) : Prop where
  train : u.train = t.train
  clock : u.clock = t.clock
  place : u.place = t.place
  lots : u.lots = t.lots
  staged : u.state = .staged ↔ t.state = .staged

/-- A change of a lot's record that leaves what it is, with its units in agreement. -/
structure Lot.Restated (x y : Lot) : Prop where
  trolley : y.trolley = x.trolley
  clock : y.clock = x.clock
  units : x.announced = x.remaining + x.sold → y.announced = y.remaining + y.sold

theorem Trolley.Restated.refl (t : Trolley) : t.Restated t := ⟨rfl, rfl, rfl, rfl, Iff.rfl⟩
theorem Lot.Restated.refl (x : Lot) : x.Restated x := ⟨rfl, rfl, id⟩

section
variable {s v : Supply} {k : Nat}

/-- Records of trolleys and lots changed in place, and the slots with them. -/
theorem Supply.Sound.restate {tr : Nat → Trolley → Trolley} {lo : Nat → Lot → Lot} (h : s.Sound k) (htrains : v.trains = s.trains)
    (htrolleys : ∀ n, Table.find v.trolleys n = (Table.find s.trolleys n).map (tr n))
    (hlots : ∀ i, Table.find v.lots i = (Table.find s.lots i).map (lo i))
    (hcount : ∀ r, v.trolleyCount r = s.trolleyCount r) (htr : ∀ n t, Table.find s.trolleys n = some t → t.Restated (tr n t))
    (hlo : ∀ i x, Table.find s.lots i = some x → x.Restated (lo i x))
    (hallow : ∀ n t i x, Table.find s.trolleys n = some t → i ∈ t.lots → Table.find s.lots i = some x →
      t.state.allows x.state = true → (tr n t).state.allows (lo i x).state = true)
    (hslot : ∀ c n, v.slots.get c = some n → ∃ t, Table.find v.trolleys n = some t ∧ t.clock = c ∧ t.state.inSlot)
    (hstands : ∀ n t, Table.find v.trolleys n = some t → t.state.inSlot → v.slots.get t.clock = some n) : v.Sound k := by
  have htrolley : ∀ {n u}, Table.find v.trolleys n = some u ↔ ∃ t, Table.find s.trolleys n = some t ∧ tr n t = u :=
    fun {n u} => by rw [htrolleys, Option.map_eq_some_iff]
  have hlot : ∀ {i y}, Table.find v.lots i = some y ↔ ∃ x, Table.find s.lots i = some x ∧ lo i x = y :=
    fun {i y} => by rw [hlots, Option.map_eq_some_iff]
  refine ⟨fun {i j r q} => ?_, fun {n u} hu => ?_, fun {i r} hr => ?_, fun {i y} hy => ?_, fun {i y} hy => ?_, fun {n u} hu => ?_,
    fun {n u i} hu hi => ?_, hslot _ _, hstands _ _⟩
  · rw [htrains]; exact h.oneFilling
  · obtain ⟨t, ht, rfl⟩ := htrolley.mp hu
    obtain ⟨r, hr, hfit⟩ := h.train ht
    have hre := htr n t ht
    refine ⟨r, by rw [htrains, hre.train]; exact hr, by rw [hre.clock]; exact hfit.clock, by rw [hre.place]; exact hfit.first,
      by rw [hre.place]; exact hfit.last, hre.staged.trans hfit.staged⟩
  · rw [htrains] at hr
    rw [hcount]
    exact h.counts hr
  · obtain ⟨x, hx, rfl⟩ := hlot.mp hy
    exact (hlo i x hx).units (h.units hx)
  · obtain ⟨x, hx, rfl⟩ := hlot.mp hy
    obtain ⟨t, ht, hi⟩ := h.listed hx
    have ht' : Table.find s.trolleys (lo i x).trolley = some t := by rw [(hlo i x hx).trolley]; exact ht
    exact ⟨_, htrolley.mpr ⟨t, ht', rfl⟩, by rw [(htr _ t ht').lots]; exact hi⟩
  · obtain ⟨t, ht, rfl⟩ := htrolley.mp hu
    rw [(htr n t ht).lots]
    exact h.nodup ht
  · obtain ⟨t, ht, rfl⟩ := htrolley.mp hu
    rw [(htr n t ht).lots] at hi
    obtain ⟨x, hx, hon⟩ := h.lot ht hi
    exact ⟨_, hlot.mpr ⟨x, hx, rfl⟩, (hlo i x hx).trolley.trans hon.trolley,
      (hlo i x hx).clock.trans (hon.clock.trans (htr n t ht).clock.symm), hallow n t i x ht hi hx hon.allowed⟩

/-- One lot's record changed. -/
theorem Supply.Sound.updLot {id : Nat} {x : Lot} {f : Lot → Lot} (h : s.Sound k) (hx : Table.find s.lots id = some x)
    (hf : x.Restated (f x))
    (ha : ∀ t, Table.find s.trolleys x.trolley = some t → t.state.allows x.state = true → t.state.allows (f x).state = true) :
    ({ s with lots := s.lots.modify id f } : Supply).Sound k := by
  refine h.restate (tr := fun _ t => t) (lo := fun i y => if i = id then f y else y) rfl (fun n => ?_) (fun i => ?_) (fun _ => rfl)
    (fun _ t _ => .refl t) (fun i y hy => ?_) (fun n t i y ht hi hy hallow => ?_) (fun c n => h.slot) fun n t => h.stands
  · simp
  · show Table.find (Table.modify s.lots id f) i = _
    rw [Table.find_modify]
    by_cases hi : i = id <;> simp [hi]
  · split
    · next hid =>
      subst hid
      obtain rfl : x = y := Option.some.inj (hx.symm.trans hy)
      exact hf
    · exact .refl y
  · split
    · next hid =>
      subst hid
      obtain rfl : x = y := Option.some.inj (hx.symm.trans hy)
      obtain ⟨z, hz, hon⟩ := h.lot ht hi
      obtain rfl : x = z := Option.some.inj (hx.symm.trans hz)
      exact ha t (hon.trolley ▸ ht) hallow
    · exact hallow

/-- One trolley's record changed, with its lots in states its state allows. -/
theorem Supply.Sound.updTrolley {id : Nat} {t : Trolley} {f : Trolley → Trolley} (h : s.Sound k) (hs : s.TablesOk)
    (ht : Table.find s.trolleys id = some t) (hf : t.Restated (f t)) (hslot : t.state.inSlot ↔ (f t).state.inSlot)
    (ha : ∀ i x, i ∈ t.lots → Table.find s.lots i = some x → t.state.allows x.state = true →
      (f t).state.allows x.state = true) :
    ({ s with trolleys := s.trolleys.modify id f } : Supply).Sound k := by
  have hfind : ∀ n, Table.find (Table.modify s.trolleys id f) n =
      (Table.find s.trolleys n).map (fun u => if n = id then f u else u) := fun n => by
    rw [Table.find_modify]
    by_cases hn : n = id <;> simp [hn]
  have hsame : ∀ {u}, Table.find s.trolleys id = some u → t = u := fun hu => Option.some.inj (ht.symm.trans hu)
  refine h.restate (tr := fun n u => if n = id then f u else u) (lo := fun _ x => x) rfl hfind (fun i => by simp)
    (fun r => Table.count_modify hs.trolleysRise fun u hu => by rw [← hsame hu, hf.train]) (fun n u hu => ?_) (fun _ x _ => .refl x)
    (fun n u i x hu hi hx hallow => ?_) (fun c n hc => ?_) fun n u hu hin => ?_
  · split
    · next hn =>
      obtain rfl := hsame (hn ▸ hu)
      exact hf
    · exact .refl u
  · split
    · next hn =>
      obtain rfl := hsame (hn ▸ hu)
      exact ha i x hi hx hallow
    · exact hallow
  · obtain ⟨u, hu, hcl, hin⟩ := h.slot hc
    refine ⟨_, (hfind n).trans (by rw [hu]; rfl), ?_⟩
    split
    · next hn =>
      obtain rfl := hsame (hn ▸ hu)
      exact ⟨hf.clock.trans hcl, hslot.mp hin⟩
    · exact ⟨hcl, hin⟩
  · rw [show ({ s with trolleys := s.trolleys.modify id f } : Supply).trolleys = Table.modify s.trolleys id f from rfl, hfind,
      Option.map_eq_some_iff] at hu
    obtain ⟨u, hu, rfl⟩ := hu
    by_cases hn : n = id
    · subst hn
      obtain rfl := hsame hu
      rw [if_pos rfl] at hin ⊢
      rw [hf.clock]
      exact h.stands hu (hslot.mpr hin)
    · rw [if_neg hn] at hin ⊢
      exact h.stands hu hin

end

/-! ### Nothing in hand -/

section
variable {p q : Part} {c : ClockId} {k : Nat}

theorem Part.inHand_eq_zero_iff : p.inHand c = 0 ↔
    (p.channels.get c).headsTold = [] ∧ (p.clocks.get c).run.lot = none ∧ (p.channels.get c).clockToSupply = [] := by
  simp [Part.inHand, and_assoc]

/-- A clock with nothing in hand. -/
theorem Part.HandSound.of_none (h : p.inHand c = 0) : p.HandSound c := by
  obtain ⟨ht, hs, hr⟩ := Part.inHand_eq_zero_iff.mp h
  exact ⟨by omega, fun {i} hi => by simp [ht] at hi, fun {i} hi => by simp [hs] at hi, fun {i} hi => by simp [hr] at hi⟩

/-- A lot in hand lies on the presented trolley in the clock's slot. -/
theorem Part.Sound.slot_of_holds (h : p.Sound k) {i : Nat} (hi : p.Holds c i) :
    ∃ n t, p.supply.slots.get c = some n ∧ p.trolley n = some t ∧ t.state = .presented ∧ i ∈ t.lots := by
  obtain ⟨x, hx, hh, hpresented⟩ : ∃ x, p.lot i = some x ∧ (p.supply.queues.get c).head? = some i ∧
      ∀ t, Table.find p.supply.trolleys x.trolley = some t → t.state.allows x.state = true → t.state = .presented := by
    rcases hi with hi | hi | hi
    · obtain ⟨hh, x, hx, hst⟩ := (h.hand c).told hi
      exact ⟨x, hx, hh, fun t _ hallow => TrolleyState.allows_selling hallow (.inl hst)⟩
    · obtain ⟨hh, x, hx, hst, -⟩ := (h.hand c).sold hi
      exact ⟨x, hx, hh, fun t _ hallow => TrolleyState.allows_selling hallow hst⟩
    · obtain ⟨hh, x, hx, -, hr⟩ := (h.hand c).reported hi
      refine ⟨x, hx, hh, fun t ht _ => ?_⟩
      rwa [Part.trolley, ht, Option.map_some, Option.some.injEq] at hr
  obtain ⟨t, ht, hmem, hcl, hallow⟩ := h.supply.trolley_of_lot hx
  have hst := hpresented t ht hallow
  have hc : t.clock = c := hcl ▸ ((h.queue c).head hh hx).1
  exact ⟨x.trolley, t, hc ▸ h.supply.stands ht (.inl hst), ht, hst, hmem⟩

/-- With no presented trolley in its slot a clock has nothing in hand. -/
theorem Part.Sound.inHand_eq_zero (h : p.Sound k)
    (hn : ∀ n t, p.supply.slots.get c = some n → p.trolley n = some t → t.state ≠ .presented) : p.inHand c = 0 := by
  have hnone : ∀ i, ¬ p.Holds c i := fun i hi => by
    obtain ⟨n, t, hs, ht, hst, -⟩ := h.slot_of_holds hi
    exact hn n t hs ht hst
  refine Part.inHand_eq_zero_iff.mpr ⟨?_, ?_, ?_⟩
  · exact List.eq_nil_iff_forall_not_mem.mpr fun i hi => hnone i (.inl hi)
  · exact Option.eq_none_iff_forall_ne_some.mpr fun i hi => hnone i (.inr (.inl hi))
  · exact List.eq_nil_iff_forall_not_mem.mpr fun i hi => hnone i (.inr (.inr hi))

/-- The agreement about a queue is read from the records and the clock's reports alone. -/
theorem Part.QueueSound.of_reads (h : p.QueueSound c) (hs : q.supply = p.supply)
    (hr : (q.channels.get c).clockToSupply = (p.channels.get c).clockToSupply) : q.QueueSound c := by
  refine ⟨hs ▸ h.nodup, hs ▸ h.fits, fun {i} hi => ?_, fun {i x} hx => ?_⟩
  · rw [hs] at hi
    rw [Part.lot, hs, hr]
    exact h.queued hi
  · rw [Part.lot, hs] at hx
    rw [hs]
    exact h.waits hx

/-! ### What a clock is told -/

theorem Channels.headsTold_noHead (h : Channels) :
    ({ h with supplyToClock := h.supplyToClock ++ [.noPresentedHead] } : Channels).headsTold = h.headsTold := by
  simp [Channels.headsTold]
theorem Channels.headsTold_lotWithdrawn (h : Channels) (i n : Nat) :
    ({ h with supplyToClock := h.supplyToClock ++ [.lotWithdrawn i n] } : Channels).headsTold = h.headsTold := by
  simp [Channels.headsTold]
theorem Channels.headsTold_head (h : Channels) (i : Nat) :
    ({ h with supplyToClock := h.supplyToClock ++ [.headLotPresented i] } : Channels).headsTold = h.headsTold ++ [i] := by
  simp [Channels.headsTold]

/-- R15: a head that is named is presented. -/
theorem Supply.headAnswer_cases (s : Supply) (c : ClockId) :
    s.headAnswer c = .noPresentedHead ∨ ∃ i x, s.headAnswer c = .headLotPresented i ∧ (s.queues.get c).head? = some i ∧
      Table.find s.lots i = some x ∧ x.state = .presented := by
  unfold Supply.headAnswer
  cases s.queues.get c with
  | nil => exact .inl rfl
  | cons i rest =>
    cases hx : Table.find s.lots i with
    | none => exact .inl (by simp [hx])
    | some x =>
      by_cases hst : x.state = .presented
      · exact .inr ⟨i, x, by simp [hx, hst], rfl, hx, hst⟩
      · exact .inl (by simp [hx, hst])

/-- R15, R20: a clock with nothing in hand is told the head of its queue. -/
theorem Part.Sound.tellHead (h : p.Sound k) (h0 : p.inHand c = 0) : (p.tellHead c).Sound k := by
  rw [Part.tellHead_eq]
  obtain ⟨ht, hs, hr⟩ := Part.inHand_eq_zero_iff.mp h0
  have hchannels : ∀ m d, (p.tellClock c m).channels.get d =
      if d = c then { p.channels.get d with supplyToClock := (p.channels.get d).supplyToClock ++ [m] } else p.channels.get d :=
    fun m d => PerClock.get_upd _ _ _ _
  rcases p.supply.headAnswer_cases c with hm | ⟨i, x, hm, hh, hx, hst⟩ <;> rw [hm]
  · refine h.of_supply rfl fun d => ⟨?_, ?_, rfl, List.Subset.refl _⟩
    · rw [hchannels]
      split
      · exact Channels.headsTold_noHead _
      · rfl
    · rw [hchannels]; split <;> rfl
  · have hreported : ∀ d, ((p.tellClock c (.headLotPresented i)).channels.get d).clockToSupply =
        (p.channels.get d).clockToSupply := fun d => by rw [hchannels]; split <;> rfl
    refine ⟨h.supply, fun d => (h.queue d).of_reads rfl (hreported d), fun d => ?_⟩
    by_cases hd : d = c
    · subst hd
      have htold : ((p.tellClock d (.headLotPresented i)).channels.get d).headsTold = [i] := by
        rw [hchannels, if_pos rfl, Channels.headsTold_head, ht]; rfl
      refine ⟨?_, fun {j} hj => ?_, fun {j} hj => ?_, fun {j} hj => ?_⟩
      · rw [Part.inHand, htold, hreported, hr]
        show 1 + (p.clocks.get d).run.lot.toList.length + 0 ≤ 1
        simp [hs]
      · rw [htold, List.mem_singleton] at hj
        subst hj
        exact ⟨hh, x, hx, hst⟩
      · rw [show (p.clocks.get d).run.lot = some j from hj] at hs
        cases hs
      · rw [hreported, hr] at hj
        cases hj
    · refine (h.hand d).of_handSame h.supply (h.queue d) (Part.SameAt.hand (.of_supply rfl ?_ (hreported d) rfl (List.Subset.refl _)))
      rw [hchannels, if_neg hd]

end

end Sys2Proof.Machine
end

section
/-! Arrivals keep the Supply Unit in agreement (R13, R14, R19). -/

namespace Sys2Proof.Machine

section
variable {p : Part} {s : Supply} {k id : Nat} {t : Trolley} {c : ClockId}

/-! ### A trolley with every lot done becomes DEPARTING (R19) -/

/-- A list with no lot open: its lots that are held are done. -/
theorem Part.done_of_notDone (h : p.notDone t.lots = []) {i : Nat} {x : Lot} (hi : i ∈ t.lots) (hx : p.lot i = some x) :
    x.state.done = true := by
  have := List.filter_eq_nil_iff.mp h i hi
  simpa [Part.isOpen, hx] using this

/-- The presented trolley of a clock with nothing in hand departs once every lot is done. -/
theorem Part.Sound.departing (h : p.Sound k) (hs : p.supply.TablesOk) (h0 : p.inHand t.clock = 0) (ht : p.trolley id = some t)
    (hst : t.state = .presented) (hn : p.notDone t.lots = []) :
    (p.updTrolley id (fun x => { x with state := .departing })).Sound k := by
  have hfind : Table.find p.supply.trolleys id = some t := ht
  have hsupply : (p.updTrolley id (fun x => { x with state := .departing })).supply.Sound k := by
    refine h.supply.updTrolley hs hfind ⟨rfl, rfl, rfl, rfl, ?_⟩ ?_ fun i y hi hy _ => Part.done_of_notDone hn hi hy
    · simp [hst]
    · simp [TrolleyState.inSlot, hst]
  refine ⟨hsupply, fun d => (h.queue d).of_kept rfl rfl (fun _ _ _ hx => hx) (fun _ _ hx => hx) (h.queue d).fits, fun d => ?_⟩
  by_cases hd : d = t.clock
  · subst hd
    exact .of_none h0
  · refine (h.hand d).of_handSame h.supply (h.queue d) ⟨rfl, rfl, rfl, List.Subset.refl _, fun _ hi => hi, fun _ _ _ _ hx => hx,
      fun {n x} hx hc hp => ?_⟩
    have hne : n ≠ id := by
      rintro rfl
      rw [ht] at hx
      cases hx
      exact hd hc.symm
    rw [Part.trolley, Part.updTrolley_supply, Table.find_modify_ne _ _ hne]
    exact (congrArg (Option.map Trolley.state) hx).trans (by rw [Option.map_some, hp])

/-! ### An arrival (R13) -/

/-- An ANNOUNCED trolley takes its clock's empty slot, and its lots take states that its new state allows. -/
theorem Supply.Sound.arrive {lots : Table Lot} {queues : PerClock (List Nat)} {st : TrolleyState} {lo : Lot → Lot} (h : s.Sound k)
    (hs : s.TablesOk) (ht : Table.find s.trolleys id = some t) (hst : t.state = .announced) (hslot : s.slots.get t.clock = none)
    (hin : st.inSlot) (hlots : ∀ i, Table.find lots i = (Table.find s.lots i).map lo) (hlo : ∀ x : Lot, x.Restated (lo x))
    (hown : ∀ i x, i ∈ t.lots → Table.find s.lots i = some x → t.state.allows x.state = true → st.allows (lo x).state = true)
    (hother : ∀ x : Lot, x.trolley ≠ id → lo x = x) :
    ({ s with slots := s.slots.upd t.clock (fun _ => some id), lots := lots, queues := queues,
              trolleys := s.trolleys.modify id (fun x => { x with state := st }) } : Supply).Sound k := by
  have hfind : ∀ n, Table.find (Table.modify s.trolleys id (fun x => { x with state := st })) n =
      (Table.find s.trolleys n).map (fun u => if n = id then { u with state := st } else u) := fun n => by
    rw [Table.find_modify]
    by_cases hn : n = id <;> simp [hn]
  have hsame : ∀ {u}, Table.find s.trolleys id = some u → t = u := fun hu => Option.some.inj (ht.symm.trans hu)
  refine h.restate (tr := fun n u => if n = id then { u with state := st } else u) (lo := fun _ x => lo x) rfl hfind hlots
    (fun r => Table.count_modify (g := fun x => { x with state := st }) hs.trolleysRise fun u _ => rfl) (fun n u hu => ?_) (fun _ x _ => hlo x)
    (fun n u i x hu hi hx hallow => ?_) (fun c n hc => ?_) fun n u hu hin' => ?_
  · split
    · next hn =>
      obtain rfl := hsame (hn ▸ hu)
      refine ⟨rfl, rfl, rfl, rfl, ?_⟩
      simp [hst, TrolleyState.inSlot_ne_staged hin]
    · exact .refl u
  · split
    · next hn =>
      obtain rfl := hsame (hn ▸ hu)
      exact hown i x hi hx hallow
    · next hn =>
      obtain ⟨y, hy, hon⟩ := h.lot hu hi
      obtain rfl : x = y := Option.some.inj (hx.symm.trans hy)
      rw [hother x (by rw [hon.trolley]; exact hn)]
      exact hallow
  · rw [show (PerClock.get (s.slots.upd t.clock (fun _ => some id)) c) = if c = t.clock then some id else s.slots.get c from
      PerClock.get_upd _ _ _ _] at hc
    split at hc
    · next hcl =>
      cases hc
      exact ⟨_, (hfind id).trans (by rw [ht]; rfl), by simp [hcl], by simpa using hin⟩
    · obtain ⟨u, hu, hcl, hin'⟩ := h.slot hc
      have hn : n ≠ id := by
        rintro rfl
        obtain rfl := hsame hu
        rcases hin' with hin' | hin' <;> rw [hst] at hin' <;> cases hin'
      exact ⟨u, (hfind n).trans (by rw [hu, Option.map_some, if_neg hn]), hcl, hin'⟩
  · show PerClock.get (s.slots.upd t.clock (fun _ => some id)) u.clock = some n
    rw [PerClock.get_upd]
    obtain ⟨w, hw, rfl⟩ := Option.map_eq_some_iff.mp ((hfind n).symm.trans hu)
    by_cases hn : n = id
    · subst hn
      obtain rfl := hsame hw
      simp
    · rw [if_neg hn] at hin' ⊢
      have hheld := h.stands hw hin'
      rw [if_neg (fun hcl => by rw [hcl, hslot] at hheld; cases hheld), hheld]

/-- A trolley that is not presented yet is not among those presented when the state of its record changes. -/
theorem Part.presented_modify {f : Trolley → Trolley} {n : Nat} {x : Trolley} (ht : p.trolley id = some t)
    (hst : t.state ≠ .presented) (hx : p.trolley n = some x) (hp : x.state = .presented) :
    (Table.find (Table.modify p.supply.trolleys id f) n).map Trolley.state = some .presented := by
  have hne : n ≠ id := by
    rintro rfl
    rw [ht] at hx
    cases hx
    exact hst hp
  rw [Table.find_modify_ne _ _ hne]
  exact (congrArg (Option.map Trolley.state) hx).trans (by rw [Option.map_some, hp])

/-- A clock whose slot is empty has nothing in hand. -/
theorem Part.Sound.inHand_of_empty (h : p.Sound k) (hslot : p.supply.slots.get c = none) : p.inHand c = 0 :=
  h.inHand_eq_zero fun n _ hn _ => by rw [hslot] at hn; cases hn

/-- An arrival with every lot done. -/
theorem Part.Sound.arrivesDone (h : p.Sound k) (hs : p.supply.TablesOk) (ht : p.trolley id = some t) (hst : t.state = .announced)
    (hslot : p.supply.slots.get t.clock = none) (hn : p.notDone t.lots = []) :
    (p.updSupply (fun s => { s with slots := s.slots.upd t.clock (fun _ => some id),
                                    trolleys := s.trolleys.modify id (fun x => { x with state := .departing }) })).Sound k :=
  h.updSupply
    (h.supply.arrive (lots := p.supply.lots) (queues := p.supply.queues) (lo := fun x => x) hs ht hst hslot (.inr rfl) (by simp)
      (fun x => .refl x) (fun i x hi hx _ => Part.done_of_notDone hn hi hx) fun _ _ => rfl)
    rfl (fun _ => Iff.rfl) (fun c => (h.queue c).fits) 
    fun hx hp => Part.presented_modify (f := fun x => { x with state := .departing }) ht (by rw [hst]; decide) hx hp

/-- R13: the record of a lot of a trolley that is presented. -/
def Lot.shown (id : Nat) (x : Lot) : Lot := if x.trolley = id ∧ x.state = .announced then { x with state := .presented } else x

theorem Lot.shown_other {x : Lot} (h : x.trolley ≠ id) : x.shown id = x := if_neg (fun hx => h hx.1)

theorem Lot.shown_restated (id : Nat) (x : Lot) : x.Restated (x.shown id) := by
  unfold Lot.shown
  split
  · exact ⟨rfl, rfl, fun hu => hu⟩
  · exact .refl x

/-- A lot that is shown is staged, or done, exactly when it was. -/
theorem Lot.shown_staged (id : Nat) (x : Lot) : (x.shown id).state = .staged ↔ x.state = .staged := by
  unfold Lot.shown
  split
  · next h => simp [h.2]
  · rfl
theorem Lot.shown_done (id : Nat) (x : Lot) : (x.shown id).state.done = x.state.done := by
  unfold Lot.shown
  split
  · next h => rw [h.2]; rfl
  · rfl

/-- The queue of a trolley that is presented holds the lots it held. -/
theorem Trolley.brings_perm (t : Trolley) (queue : List Nat) : (t.brings queue).Perm queue := by
  unfold Trolley.brings
  split
  · exact List.filter_append_perm _ _
  · exact .refl _

/-- R13, R14: the records of an arrival with lots not done. -/
def Supply.shows (s : Supply) (id : Nat) (t : Trolley) : Supply :=
  { s with slots := s.slots.upd t.clock (fun _ => some id), lots := s.lots.mapAll (Lot.shown id),
           queues := s.queues.upd t.clock t.brings,
           trolleys := s.trolleys.modify id (fun x => { x with state := .presented }) }

theorem Supply.Sound.shows (h : s.Sound k) (hs : s.TablesOk) (ht : Table.find s.trolleys id = some t) (hst : t.state = .announced)
    (hslot : s.slots.get t.clock = none) : (s.shows id t).Sound k := by
  refine h.arrive (lo := Lot.shown id) hs ht hst hslot (.inl rfl) (Table.find_mapAll _ _) (Lot.shown_restated id)
    (fun i x hi hx hallow => ?_) fun x => Lot.shown_other
  obtain ⟨y, hy, hon⟩ := h.lot ht hi
  obtain rfl : x = y := Option.some.inj (hx.symm.trans hy)
  rw [hst] at hallow
  simp only [TrolleyState.allows, Bool.or_eq_true, decide_eq_true_eq] at hallow
  rcases hallow with ha | hw
  · rw [Lot.shown, if_pos ⟨hon.trolley, ha⟩]; rfl
  · rw [Lot.shown, if_neg (by simp [hw]), hw]; rfl

theorem Supply.shows_stagedOn (s : Supply) (c : ClockId) : (s.shows id t).stagedOn c = s.stagedOn c := by
  refine (Table.count_mapAll s.lots (Lot.shown id) (fun x => decide (x.state = .staged) && decide (x.clock = c))).trans ?_
  refine congrArg (Table.count s.lots) (funext fun x => ?_)
  rw [(Lot.shown_restated id x).clock]
  exact congrArg (· && _) (decide_eq_decide.mpr (Lot.shown_staged id x))

/-- An arrival with lots not done: they are brought to the head of the queue and presented. -/
theorem Part.Sound.shows (h : p.Sound k) (hs : p.supply.TablesOk) (ht : p.trolley id = some t) (hst : t.state = .announced)
    (hslot : p.supply.slots.get t.clock = none) : (p.updSupply (fun s => s.shows id t)).Sound k := by
  have hlot : ∀ i, (p.updSupply (fun s => s.shows id t)).lot i = (p.lot i).map (Lot.shown id) := fun i =>
    Table.find_mapAll p.supply.lots (Lot.shown id) i
  have hqueue : ∀ d, (p.supply.shows id t).queues.get d =
      if d = t.clock then t.brings (p.supply.queues.get d) else p.supply.queues.get d := fun d => PerClock.get_upd _ _ _ _
  refine ⟨h.supply.shows hs ht hst hslot, fun d => ?_, fun d => ?_⟩
  · have hq := h.queue d
    have hperm : ((p.supply.shows id t).queues.get d).Perm (p.supply.queues.get d) := by
      rw [hqueue]
      split
      · exact t.brings_perm _
      · exact .refl _
    refine ⟨hperm.nodup_iff.mpr hq.nodup, ?_, fun {i} hi => ?_, fun {i y} hy hc hns hd => ?_⟩
    · rw [Part.updSupply_supply, hperm.length_eq, Supply.shows_stagedOn]
      exact hq.fits
    · obtain ⟨x, hx, hc, hns, hd⟩ := hq.queued (hperm.mem_iff.mp hi)
      refine ⟨x.shown id, by rw [hlot, hx, Option.map_some], (Lot.shown_restated id x).clock.trans hc,
        mt (Lot.shown_staged id x).mp hns, fun hdone => hd ?_⟩
      rwa [Lot.shown_done] at hdone
    · rw [hlot, Option.map_eq_some_iff] at hy
      obtain ⟨x, hx, rfl⟩ := hy
      rw [Lot.shown_done] at hd
      exact hperm.mem_iff.mpr (hq.waits hx ((Lot.shown_restated id x).clock.symm.trans hc) (mt (Lot.shown_staged id x).mpr hns) hd)
  · by_cases hd : d = t.clock
    · subst hd
      exact .of_none (h.inHand_of_empty hslot)
    · refine (h.hand d).of_handSame h.supply (h.queue d) ⟨rfl, rfl, rfl, List.Subset.refl _, fun _ hi => ?_, fun _ _ hc _ hx => ?_,
        fun hx _ hp => Part.presented_modify (f := fun x => { x with state := .presented }) ht (by rw [hst]; decide) hx hp⟩
      · rw [Part.updSupply_supply, hqueue, if_neg hd]
        exact hi
      · rw [hlot, hx, Option.map_some, Lot.shown_other]
        rintro hid
        obtain ⟨u, hu, -, hcl, -⟩ := h.supply.trolley_of_lot hx
        rw [hid, show Table.find p.supply.trolleys id = some t from ht] at hu
        cases hu
        exact hd (hc.symm.trans hcl)

/-! ### TROLLEY ARRIVED -/

/-- Every arrival keeps the Supply Unit in agreement. -/
theorem arrive_sound {l : LinkId} {m : Message} (h : p.Sound k) (hs : p.supply.TablesOk) (ht : p.trolley id = some t)
    (hst : t.state = .announced) (hslot : p.supply.slots.get t.clock = none) : (arrive l m t.clock id t p).Sound k := by
  by_cases hn : p.notDone t.lots = []
  · rw [arrive_departs hn, makeDeparting_eq (t := p) (Part.inSlot_trolley ht) rfl]
    refine (h.arrivesDone hs ht hst hslot hn).of_market ?_
    simp only [Part.inSlot, Table.modify_modify]
    rfl
  · rw [arrive_presents hn]
    simp only [presentLots]
    rw [sequenceNotice_eq (p := p.inSlot t.clock id) (q := p) id t rfl]
    refine Part.Sound.of_market ?_ (Part.reply_market _ _ _ _)
    refine Part.Sound.of_sale ?_ (Part.supplyEvent_sale _ _ _)
    exact Part.Sound.tellHead ((h.shows hs ht hst hslot).of_market rfl) (h.inHand_of_empty hslot)

theorem takeTrolleyArrived_sound {l : LinkId} {m : Message} (h : p.Sound k) (hs : p.supply.TablesOk) :
    (takeTrolleyArrived l m p).Sound k := by
  have hrefused : ∀ e, (p.refuseMsg l m e).Sound k := fun e => h.of_market rfl
  cases hc : clockOf (fieldAt m.body 2 1) with
  | none =>
    have : takeTrolleyArrived l m p = p.refuseMsg l m .malformed := by simp [takeTrolleyArrived, hc]
    rw [this]
    exact hrefused _
  | some c =>
    by_cases hid : fieldAt m.body 0 2 = 0
    · have : takeTrolleyArrived l m p = p.refuseMsg l m .malformed := by simp [takeTrolleyArrived, hc, hid]
      rw [this]
      exact hrefused _
    · cases ht : p.trolley (fieldAt m.body 0 2) with
      | none =>
        have : takeTrolleyArrived l m p = p.refuseMsg l m .unknownTrolley := by simp [takeTrolleyArrived, hc, hid, ht]
        rw [this]
        exact hrefused _
      | some t =>
        rw [takeTrolleyArrived_judged hid hc ht]
        split
        · exact hrefused _
        · split
          · exact hrefused _
          · split
            · exact hrefused _
            · split
              · exact hrefused _
              · next hw hst hslot =>
                obtain rfl : t.clock = c := not_not.mp hw
                exact arrive_sound h hs ht (not_not.mp hst) (by simpa using hslot)

end

end Sys2Proof.Machine
end

section
/-! Withdrawals by logistics, departures and lot done reports keep the Supply Unit in agreement (R15 to R17, R20). -/

namespace Sys2Proof.Machine

section
variable {p : Part} {s : Supply} {k id : Nat} {c : ClockId}

/-! ### Withdrawals (R16, R17) -/

/-- A lot in hand is not ANNOUNCED. -/
theorem Part.HandSound.not_announced (h : p.HandSound c) {i : Nat} (hi : p.Holds c i) {x : Lot} (hx : p.lot i = some x) :
    x.state ≠ .announced := by
  have hsome : ∀ {y}, p.lot i = some y → x = y := fun hy => Option.some.inj (hx.symm.trans hy)
  rcases hi with hi | hi | hi
  · obtain ⟨-, y, hy, hst⟩ := h.told hi
    rw [hsome hy, hst]; decide
  · obtain ⟨-, y, hy, hst, -⟩ := h.sold hi
    rw [hsome hy]
    rcases hst with hst | hst <;> rw [hst] <;> decide
  · obtain ⟨-, y, hy, hd, -⟩ := h.reported hi
    rw [hsome hy]
    intro hst
    rw [hst] at hd
    cases hd

/-- The head of a list stays when other members are dropped. -/
theorem head?_filter_ne {xs : List Nat} {i j : Nat} (h : xs.head? = some i) (hne : i ≠ j) :
    (xs.filter (fun x => decide (x ≠ j))).head? = some i := by
  cases xs with
  | nil => cases h
  | cons x rest =>
    simp only [List.head?_cons, Option.some.injEq] at h
    subst h
    simp [hne]

/-- R16: logistics withdraws an ANNOUNCED lot. -/
theorem Part.Sound.lotWithdrawn {t : Lot} (h : p.Sound k) (hs : p.supply.TablesOk) (ht : p.lot id = some t)
    (hst : t.state = .announced) : (p.lotWithdrawn id t).Sound k := by
  have hlot : ∀ i, (p.lotWithdrawn id t).lot i = if i = id then (p.lot i).map Lot.takenBack else p.lot i :=
    Part.lotWithdrawn_lot ht hst
  have hne : ∀ {i x}, i ≠ id → ((p.lotWithdrawn id t).lot i = some x ↔ p.lot i = some x) := fun hi => by rw [hlot, if_neg hi]
  have htaken : (p.lotWithdrawn id t).lot id = some { t with state := .withdrawn, remaining := t.announced, sold := 0 } := by
    rw [hlot, if_pos rfl, ht, Option.map_some, Lot.takenBack, if_pos hst]
  have hqueue : ∀ d, (p.lotWithdrawn id t).supply.queues.get d = _ := p.lotWithdrawn_queue id t
  have hchannel : ∀ d, ((p.lotWithdrawn id t).channels.get d).headsTold = (p.channels.get d).headsTold ∧
      ((p.lotWithdrawn id t).channels.get d).clockToSupply = (p.channels.get d).clockToSupply := fun d => by
    simp only [Part.lotWithdrawn, PerClock.get_upd]
    split
    · refine ⟨?_, rfl⟩
      split
      · exact Channels.headsTold_lotWithdrawn _ _ _
      · rfl
    · exact ⟨rfl, rfl⟩
  have hstaged : ∀ d, (p.lotWithdrawn id t).supply.stagedOn d = p.supply.stagedOn d := fun d =>
    Table.count_modify (g := fun x => { x with state := .withdrawn, remaining := x.announced, sold := 0 }) hs.lotsRise fun x hx => by
      obtain rfl : t = x := Option.some.inj (ht.symm.trans hx)
      simp [hst]
  refine ⟨?_, fun d => ?_, fun d => ?_⟩
  · refine (h.supply.updLot ht ⟨rfl, rfl, fun _ => rfl⟩ fun u _ hallow => ?_).of_same
      (v := (p.lotWithdrawn id t).supply) rfl rfl rfl rfl
    rw [hst] at hallow
    cases hu : u.state <;> simp [hu, TrolleyState.allows, LotState.done] at hallow ⊢
  · have hq := h.queue d
    have hmem : ∀ {i}, i ∈ (p.lotWithdrawn id t).supply.queues.get d → i ∈ p.supply.queues.get d ∧ i ≠ id := fun {i} hi => by
      rw [hqueue] at hi
      split at hi
      · simpa using hi
      · next hd =>
        refine ⟨hi, ?_⟩
        rintro rfl
        obtain ⟨x, hx, hc, -⟩ := hq.queued hi
        obtain rfl : t = x := Option.some.inj (ht.symm.trans hx)
        exact hd hc.symm
    refine ⟨?_, ?_, fun {i} hi => ?_, fun {i x} hx hc hns hd => ?_⟩
    · rw [hqueue]
      split
      · exact hq.nodup.filter _
      · exact hq.nodup
    · rw [hstaged, hqueue]
      have hfits := hq.fits
      split
      · have := List.length_filter_le (fun i => decide (i ≠ id)) (p.supply.queues.get d)
        omega
      · exact hfits
    · obtain ⟨hi, hid⟩ := hmem hi
      rw [(hchannel d).2]
      obtain ⟨x, hx, hrest⟩ := hq.queued hi
      exact ⟨x, (hne hid).mpr hx, hrest⟩
    · have hid : i ≠ id := by
        rintro rfl
        rw [htaken] at hx
        cases hx
        cases hd
      have hi := hq.waits ((hne hid).mp hx) hc hns hd
      rw [hqueue]
      split
      · simpa [hid] using hi
      · exact hi
  · have hid : ∀ {i}, p.Holds d i → i ≠ id := fun hi hid => (h.hand d).not_announced hi (hid ▸ ht) hst
    refine (h.hand d).of_handSame h.supply (h.queue d) ⟨(hchannel d).1, (hchannel d).2, rfl, List.Subset.refl _, fun hi hh => ?_,
      fun hi _ _ _ hx => (hne (hid hi)).mpr hx, fun hx _ hp => by rw [show (p.lotWithdrawn id t).trolley _ = _ from hx, Option.map_some, hp]⟩
    rw [hqueue]
    split
    · exact head?_filter_ne hh (hid hi)
    · exact hh

theorem takeLotWithdraw_sound {l : LinkId} {m : Message} (h : p.Sound k) (hs : p.supply.TablesOk) :
    (takeLotWithdraw l m p).Sound k := by
  by_cases hid : fieldAt m.body 0 4 = 0
  · have : takeLotWithdraw l m p = p.refuseMsg l m .malformed := if_pos hid
    rw [this]
    exact h.of_market rfl
  · cases ht : p.lot (fieldAt m.body 0 4) with
    | none =>
      have : takeLotWithdraw l m p = p.refuseMsg l m .unknownLot := by simp [takeLotWithdraw, hid, ht]
      rw [this]
      exact h.of_market rfl
    | some t =>
      rw [takeLotWithdraw_judged hid ht]
      split
      · exact h.of_market rfl
      · split
        · exact h.of_market rfl
        · next hst => exact (h.lotWithdrawn hs ht (not_not.mp hst)).of_market rfl

/-- The lots of a train, one after another. -/
theorem Part.Sound.foldl_withdraw (ids : List Nat) (h : p.Sound k) (hs : p.supply.TablesOk) :
    (ids.foldl withdrawIfAnnounced p).Sound k := by
  induction ids generalizing p with
  | nil => exact h
  | cons i rest ih =>
    rw [List.foldl_cons]
    have hs' : (withdrawIfAnnounced p i).supply.TablesOk := by
      have ht := withdrawIfAnnounced_tables p i
      simp only [Part.tables, Prod.mk.injEq] at ht
      exact hs.of_keys ht.1 ht.2.1 ht.2.2.1
    refine ih ?_ hs'
    rcases withdrawIfAnnounced_cases p i with ⟨hp, -⟩ | ⟨x, hx, hst, hp⟩ <;> rw [hp]
    · exact h
    · exact h.lotWithdrawn hs hx hst

theorem takeTrainWithdraw_sound {l : LinkId} {m : Message} (h : p.Sound k) (hs : p.supply.TablesOk) :
    (takeTrainWithdraw l m p).Sound k := by
  cases ht : p.supply.trains.find (fieldAt m.body 0 2) with
  | none =>
    have : takeTrainWithdraw l m p = p.refuseMsg l m .unknownTrain := by simp [takeTrainWithdraw, ht]
    rw [this]
    exact h.of_market rfl
  | some t =>
    cases hst : t.state with
    | filling =>
      rw [takeTrainWithdraw_filling ht hst]
      exact (h.freeFilling hs ht hst _).of_market rfl
    | admitted =>
      rw [takeTrainWithdraw_admitted ht hst]
      exact (h.foldl_withdraw _ hs).of_market rfl

/-- The LOGISTICS link is lost: a FILLING train is freed (R12). -/
theorem logisticsLost_sound (h : p.Sound k) (hs : p.supply.TablesOk) : (logisticsLost p).Sound k := by
  have heq : ∀ {v : Supply}, (match p.supply.filling with | none => p.supply | some (id, _) => p.supply.freeFilling id) = v →
      (logisticsLost p).supply = { v with discard := none } := by rintro v rfl; rfl
  cases hf : p.supply.filling with
  | none => exact (h.discard none).of_supply (heq (by rw [hf])) fun _ => ⟨rfl, rfl, rfl, List.Subset.refl _⟩
  | some e =>
    obtain ⟨id, t⟩ := e
    exact (h.freeFilling hs (Supply.filling_find hs hf) (Supply.filling_mem hf).2 none).of_supply (heq (by rw [hf]))
      fun _ => ⟨rfl, rfl, rfl, List.Subset.refl _⟩

end

end Sys2Proof.Machine
end

section
/-! Departures and lot done reports keep the Supply Unit in agreement (R15, R20). -/

namespace Sys2Proof.Machine

section
variable {p : Part} {s : Supply} {k id : Nat} {c : ClockId} {t : Trolley}

/-! ### TROLLEY DEPARTED (R20) -/

/-- A record that passes a test is counted. -/
theorem Table.count_pos {α : Type} {t : Table α} {k : Nat} {v : α} {f : α → Bool} (h : Table.find t k = some v) (hf : f v = true) :
    1 ≤ Table.count t f :=
  List.length_pos_of_mem (List.mem_filter.mpr ⟨Table.mem_of_find h, hf⟩)

theorem Supply.depart_lots (s : Supply) (i : Nat) :
    Table.find (s.depart id t).lots i = if i ∈ t.lots then none else Table.find s.lots i := Table.find_foldl_del _ _ _

theorem Supply.depart_trolleys (s : Supply) (n : Nat) :
    Table.find (s.depart id t).trolleys n = if n = id then none else Table.find s.trolleys n := Table.find_del _ _ _

theorem Supply.Sound.depart (h : s.Sound k) (hs : s.TablesOk) (ht : Table.find s.trolleys id = some t)
    (hst : t.state = .departing) : (s.depart id t).Sound k := by
  obtain ⟨r, hr, hfit⟩ := h.train ht
  have hadmitted : r.state = .admitted := by
    cases hrs : r.state with
    | admitted => rfl
    | filling => have := hfit.staged.mpr hrs; rw [hst] at this; cases this
  have hc := h.counts hr
  obtain ⟨htaken, hlive, hcount⟩ := hc.admitted hadmitted
  have hcounts : ∀ i, (s.depart id t).trolleyCount i + (if t.train = i then 1 else 0) = s.trolleyCount i := fun i => by
    have := Table.count_del hs.trolleysRise ht (fun u => decide (u.train = i))
    simp only [decide_eq_true_eq] at this
    exact this
  have htrolley : ∀ {n u}, Table.find (s.depart id t).trolleys n = some u ↔ n ≠ id ∧ Table.find s.trolleys n = some u := fun {n u} => by
    rw [Supply.depart_trolleys]
    by_cases hn : n = id <;> simp [hn]
  have hlot : ∀ {i x}, Table.find (s.depart id t).lots i = some x ↔ i ∉ t.lots ∧ Table.find s.lots i = some x := fun {i x} => by
    rw [Supply.depart_lots]
    by_cases hi : i ∈ t.lots <;> simp [hi]
  have htrain : ∀ {i q}, Table.find (s.depart id t).trains i = some q →
      (i = t.train ∧ 1 < r.live ∧ q = { r with live := r.live - 1 }) ∨ (i ≠ t.train ∧ Table.find s.trains i = some q) := fun {i q} hq => by
    by_cases hi : i = t.train
    · subst hi
      rw [Supply.depart_train hr] at hq
      split at hq
      · cases hq
      · next hl => exact .inl ⟨rfl, by omega, (Option.some.inj hq).symm⟩
    · rw [Supply.depart_train_ne hi] at hq
      exact .inr ⟨hi, hq⟩
  refine ⟨fun {i j q w} hq hw hqf hwf => ?_, fun {n u} hu => ?_, fun {i q} hq => ?_, fun {i x} hx => h.units (hlot.mp hx).2,
    fun {i x} hx => ?_, fun {n u} hu => h.nodup (htrolley.mp hu).2, fun {n u i} hu hi => ?_, fun {d n} hd => ?_,
    fun {n u} hu hin => ?_⟩
  · have hold : ∀ {i q}, q.state = .filling → Table.find (s.depart id t).trains i = some q → Table.find s.trains i = some q := by
      intro i q hqf hq
      rcases htrain hq with ⟨-, -, rfl⟩ | ⟨-, hq⟩
      · rw [show ({ r with live := r.live - 1 } : Train).state = r.state from rfl, hadmitted] at hqf
        cases hqf
      · exact hq
    exact h.oneFilling (hold hqf hq) (hold hwf hw) hqf hwf
  · obtain ⟨hn, hu⟩ := htrolley.mp hu
    obtain ⟨q, hq, hfit'⟩ := h.train hu
    by_cases hut : u.train = t.train
    · have hpos : 1 ≤ (s.depart id t).trolleyCount t.train :=
        Table.count_pos (htrolley.mpr ⟨hn, hu⟩) (by simpa using hut)
      have hcut := hcounts t.train
      rw [if_pos rfl] at hcut
      rw [hut, hr] at hq
      cases hq
      refine ⟨{ r with live := r.live - 1 }, ?_, hfit'.clock, hfit'.first, hfit'.last, hfit'.staged⟩
      rw [hut, Supply.depart_train hr, if_neg (by omega)]
    · exact ⟨q, by rw [Supply.depart_train_ne hut]; exact hq, hfit'⟩
  · have hcut := hcounts i
    rcases htrain hq with ⟨rfl, hl, rfl⟩ | ⟨hi, hq⟩
    · rw [if_pos rfl] at hcut
      refine ⟨hc.stated, fun hf => ?_, fun _ => ⟨htaken, ?_, ?_⟩⟩
      · rw [show ({ r with live := r.live - 1 } : Train).state = r.state from rfl, hadmitted] at hf
        cases hf
      · show 1 ≤ r.live - 1
        omega
      · show _ = r.live - 1
        omega
    · rw [if_neg (Ne.symm hi), Nat.add_zero] at hcut
      rw [hcut]
      exact h.counts hq
  · obtain ⟨hi, hx⟩ := hlot.mp hx
    obtain ⟨u, hu, hiu⟩ := h.listed hx
    refine ⟨u, htrolley.mpr ⟨fun hid => hi ?_, hu⟩, hiu⟩
    rw [hid, ht] at hu
    cases hu
    exact hiu
  · obtain ⟨hn, hu⟩ := htrolley.mp hu
    obtain ⟨x, hx, hon⟩ := h.lot hu hi
    exact ⟨x, hlot.mpr ⟨fun hit => hn (h.lots_disjoint hu ht hi hit), hx⟩, hon⟩
  · rw [show (s.depart id t).slots.get d = if d = t.clock then none else s.slots.get d from PerClock.get_upd _ _ _ _] at hd
    split at hd
    · cases hd
    · next hne =>
      obtain ⟨u, hu, hcl, hin⟩ := h.slot hd
      refine ⟨u, htrolley.mpr ⟨?_, hu⟩, hcl, hin⟩
      rintro rfl
      rw [ht] at hu
      cases hu
      exact hne hcl.symm
  · obtain ⟨hn, hu⟩ := htrolley.mp hu
    have hstand := h.stands hu hin
    have hne : u.clock ≠ t.clock := fun hcl => by
      rw [hcl, h.stands ht (.inr hst)] at hstand
      exact hn (Option.some.inj hstand).symm
    exact (PerClock.get_upd_ne _ _ hne).trans hstand

/-- A clock whose slot holds a DEPARTING trolley has nothing in hand. -/
theorem Part.Sound.inHand_of_departing (h : p.Sound k) (ht : p.trolley id = some t) (hst : t.state = .departing) :
    p.inHand t.clock = 0 := by
  refine h.inHand_eq_zero fun n u hn hu => ?_
  rw [h.supply.stands ht (.inr hst)] at hn
  cases hn
  rw [ht] at hu
  cases hu
  rw [hst]
  decide

/-- R20: a DEPARTING trolley leaves, with its lots, of which none stands in a queue. -/
theorem Part.Sound.depart (h : p.Sound k) (hs : p.supply.TablesOk) (ht : p.trolley id = some t) (hst : t.state = .departing) :
    (p.updSupply (fun s => s.depart id t)).Sound k := by
  have hlot : ∀ i, (p.updSupply (fun s => s.depart id t)).lot i = if i ∈ t.lots then none else p.lot i :=
    fun i => p.supply.depart_lots i
  have hunqueued : ∀ {d i}, i ∈ p.supply.queues.get d → i ∉ t.lots := by
    intro d i hi hit
    obtain ⟨x, hx, hcl, -, hd⟩ := (h.queue d).queued hi
    obtain ⟨y, hy, hon⟩ := h.supply.lot ht hit
    obtain rfl : x = y := Option.some.inj (hx.symm.trans hy)
    have hdone : x.state.done = true := by
      have := hon.allowed
      rwa [hst] at this
    obtain ⟨n, u, -, hu, hup, hiu⟩ := h.slot_of_holds (.inr (.inr (hd hdone)))
    have := h.supply.lots_disjoint hu ht hiu hit
    subst this
    rw [ht] at hu
    cases hu
    rw [hst] at hup
    cases hup
  refine h.of_sameAt (h.supply.depart hs ht hst) (fun d => ⟨rfl, rfl, rfl, List.Subset.refl _, rfl, fun hi _ _ hx => ?_,
    fun _ _ hx => ?_, fun {n u} hu _ hup => ?_⟩) fun d => h.fits_of_le (Table.count_foldl_del_le _ _ _)
  · rw [hlot, if_neg (hunqueued hi), hx]
  · rw [hlot] at hx
    split at hx
    · cases hx
    · exact hx
  · have hne : n ≠ id := by
      rintro rfl
      rw [ht] at hu
      cases hu
      rw [hst] at hup
      cases hup
    refine (congrArg (Option.map Trolley.state) (p.supply.depart_trolleys n)).trans ?_
    rw [if_neg hne]
    exact (congrArg (Option.map Trolley.state) hu).trans (by rw [Option.map_some, hup])

theorem takeTrolleyDeparted_sound {l : LinkId} {m : Message} (h : p.Sound k) (hs : p.supply.TablesOk) :
    (takeTrolleyDeparted l m p).Sound k := by
  cases ht : p.trolley (fieldAt m.body 0 2) with
  | none =>
    have : takeTrolleyDeparted l m p = p.refuseMsg l m .unknownTrolley := by simp [takeTrolleyDeparted, ht]
    rw [this]
    exact h.of_market rfl
  | some t =>
    cases hst : t.state with
    | staged =>
      have : takeTrolleyDeparted l m p = p.refuseMsg l m .unknownTrolley := by simp [takeTrolleyDeparted, ht, hst]
      rw [this]
      exact h.of_market rfl
    | announced =>
      have : takeTrolleyDeparted l m p = p.refuseMsg l m .busy := by simp [takeTrolleyDeparted, ht, hst]
      rw [this]
      exact h.of_market rfl
    | presented =>
      have : takeTrolleyDeparted l m p = p.refuseMsg l m .busy := by simp [takeTrolleyDeparted, ht, hst]
      rw [this]
      exact h.of_market rfl
    | departing =>
      rw [takeTrolleyDeparted_departing ht hst]
      exact Part.Sound.tellHead ((h.depart hs ht hst).of_market rfl) (h.inHand_of_departing ht hst)

/-! ### The lot done report (R15) -/

/-- A report taken off the clock's hand-overs, with its lot taken off the queue. -/
def Part.unreported (p : Part) (c : ClockId) (lot : Nat) (rest : List Nat) : Part :=
  (p.updChannels c (fun h => { h with clockToSupply := rest })).updSupply
    (fun s => { s with queues := s.queues.upd c (fun q => q.filter (fun i => decide (i ≠ lot))) })

/-- With its one report taken a clock has nothing in hand. -/
theorem Part.HandSound.inHand_unreported (h : p.HandSound c) {lot : Nat} {rest : List Nat}
    (hr : (p.channels.get c).clockToSupply = lot :: rest) : (p.unreported c lot rest).inHand c = 0 ∧ rest = [] := by
  have hone := h.one
  rw [Part.inHand, hr, List.length_cons] at hone
  have hrest : rest = [] := List.length_eq_zero_iff.mp (by omega)
  refine ⟨?_, hrest⟩
  have hchannels : (p.unreported c lot rest).channels.get c = { p.channels.get c with clockToSupply := rest } :=
    PerClock.get_upd_self _ _ _
  rw [Part.inHand, hchannels]
  show (p.channels.get c).headsTold.length + (p.clocks.get c).run.lot.toList.length + rest.length = 0
  omega

theorem Part.Sound.unreported (h : p.Sound k) {lot : Nat} {rest : List Nat}
    (hr : (p.channels.get c).clockToSupply = lot :: rest) : (p.unreported c lot rest).Sound k := by
  obtain ⟨h0, hrest⟩ := (h.hand c).inHand_unreported hr
  have hqueue : ∀ d, (p.unreported c lot rest).supply.queues.get d =
      if d = c then (p.supply.queues.get d).filter (fun i => decide (i ≠ lot)) else p.supply.queues.get d :=
    fun d => PerClock.get_upd _ _ _ _
  have hchannels : ∀ d, (p.unreported c lot rest).channels.get d =
      if d = c then { p.channels.get d with clockToSupply := rest } else p.channels.get d := fun d => PerClock.get_upd _ _ _ _
  have hother : ∀ d, d ≠ c → (p.unreported c lot rest).QueueSound d ∧ (p.unreported c lot rest).HandSound d := fun d hd => by
    refine h.at ⟨?_, ?_, rfl, List.Subset.refl _, ?_, fun _ _ _ hx => hx, fun _ _ hx => hx, fun hx _ hp => ?_⟩ (h.queue d).fits
    · rw [hchannels, if_neg hd]
    · rw [hchannels, if_neg hd]
    · rw [hqueue, if_neg hd]
    · exact (congrArg (Option.map Trolley.state) hx).trans (by rw [Option.map_some, hp])
  refine ⟨h.supply.of_same rfl rfl rfl rfl, fun d => ?_, fun d => ?_⟩
  · by_cases hd : d = c
    · subst hd
      have hq := h.queue d
      have hqd := (hqueue d).trans (if_pos rfl)
      obtain ⟨-, y, hy, hydone, -⟩ := (h.hand d).reported (i := lot) (by simp [hr])
      refine ⟨hqd ▸ hq.nodup.filter _, ?_, fun {i} hi => ?_, fun {i x} hx hc hns hdone => ?_⟩
      · have := List.length_filter_le (fun i => decide (i ≠ lot)) (p.supply.queues.get d)
        have hfits := hq.fits
        rw [hqd]
        show _ + p.supply.stagedOn d ≤ _
        omega
      · rw [hqd, List.mem_filter, decide_eq_true_eq] at hi
        obtain ⟨x, hx, hc, hns, hreport⟩ := hq.queued hi.1
        refine ⟨x, hx, hc, hns, fun hdone => absurd (hreport hdone) ?_⟩
        rw [hr, hrest, List.mem_singleton]
        exact hi.2
      · rw [hqd, List.mem_filter, decide_eq_true_eq]
        refine ⟨hq.waits hx hc hns hdone, ?_⟩
        rintro rfl
        obtain rfl : y = x := Option.some.inj (hy.symm.trans hx)
        rw [hydone] at hdone
        cases hdone
    · exact (hother d hd).1
  · by_cases hd : d = c
    · subst hd
      exact .of_none h0
    · exact (hother d hd).2

/-- The slot's trolley departs when its last lot is done. -/
theorem departIfDone_sound (h : p.Sound k) (hs : p.supply.TablesOk) (h0 : p.inHand c = 0) :
    (departIfDone c p).Sound k ∧ (departIfDone c p).inHand c = 0 := by
  cases hn : p.supply.slots.get c with
  | none => rw [departIfDone_empty hn]; exact ⟨h, h0⟩
  | some n =>
    obtain ⟨t, ht, hc, -⟩ := h.supply.slot hn
    rw [departIfDone_held hn ht]
    split
    · next hd =>
      subst hc
      rw [makeDeparting_eq (t := p) ht rfl]
      exact ⟨(h.departing hs h0 ht hd.1 hd.2).of_market rfl, h0⟩
    · exact ⟨h, h0⟩

theorem lotDoneStep_sound (h : p.Sound k) (hs : p.supply.TablesOk) : (lotDoneStep c p).Sound k := by
  cases hr : (p.channels.get c).clockToSupply with
  | nil => rw [lotDoneStep, hr]; exact h
  | cons lot rest =>
    have hstep : lotDoneStep c p = ((departIfDone c (p.unreported c lot rest)).tellHead c).supplyEvent c false := by
      rw [lotDoneStep, hr]; rfl
    obtain ⟨hsound, h0⟩ := departIfDone_sound (h.unreported hr) (hs.of_keys rfl rfl rfl) ((h.hand c).inHand_unreported hr).1
    rw [hstep]
    exact (hsound.tellHead h0).of_sale (Part.supplyEvent_sale _ _ _)

end

end Sys2Proof.Machine
end

section
/-! The Clock Units keep the Supply Unit in agreement: the lot that is being sold (R28, R29, R48, R56 to R60). -/

namespace Sys2Proof.Machine

/-! ### A clock with a lot in its run record -/

/-- The Supply Unit is in agreement, and a clock has a lot in its run record. -/
structure Part.Selling (p : Part) (c : ClockId) : Prop where
  sound : p.Sound 0
  tables : p.supply.TablesOk
  lot : ∃ i, (p.clocks.get c).run.lot = some i

section
variable {p q : Part} {c : ClockId}

theorem Supply.TablesOk.of_tables (h : p.supply.TablesOk) (ht : q.tables = p.tables) : q.supply.TablesOk := by
  simp only [Part.tables, Prod.mk.injEq] at ht
  exact h.of_keys ht.1 ht.2.1 ht.2.2.1

theorem Part.Selling.of_sale (h : p.Selling c) (hs : q.sale = p.sale) : q.Selling c := by
  obtain ⟨-, hsupply, hclocks, -⟩ := Part.sale_eq_iff.mp hs
  exact ⟨h.sound.of_sale hs, hsupply ▸ h.tables, (hclocks c).1 ▸ h.lot⟩

/-- The lot on sale is held, heads its queue, is on offer, and has the units every candidate asks for. -/
theorem Part.Selling.sale_spec (h : p.Selling c) : ∃ i x, (p.clocks.get c).run.lot = some i ∧ p.saleId c = i ∧ p.saleLot c = x ∧
    p.lot i = some x ∧ (p.supply.queues.get c).head? = some i ∧ (x.state = .presented ∨ x.state = .selling) ∧
    ∀ y ∈ (p.clocks.get c).candidates, y.quantity ≤ x.remaining := by
  obtain ⟨i, hi⟩ := h.lot
  obtain ⟨hh, x, hx, hst, hy⟩ := (h.sound.hand c).sold hi
  have hid : p.saleId c = i := by rw [Part.saleId, hi]; rfl
  exact ⟨i, x, hi, hid, by rw [Part.saleLot, hid, hx]; rfl, hx, hh, hst, hy⟩

/-- The sale names its lot. -/
theorem Part.saleLot_of_sale (hs : q.sale = p.sale) : q.saleLot c = p.saleLot c := by
  obtain ⟨-, hsupply, hclocks, -⟩ := Part.sale_eq_iff.mp hs
  simp only [Part.saleLot, Part.saleId, Part.lot, hsupply, (hclocks c).1]

/-- A change of the candidate list that adds candidates within the remaining units alone. -/
theorem Part.Selling.updClock {f : ClockUnit → ClockUnit} (h : p.Selling c)
    (hl : (f (p.clocks.get c)).run.lot = (p.clocks.get c).run.lot)
    (hc : ∀ y ∈ (f (p.clocks.get c)).candidates, y ∈ (p.clocks.get c).candidates ∨ y.quantity ≤ (p.saleLot c).remaining) :
    (p.updClock c f).Selling c := by
  obtain ⟨i, x, hi, -, hsale, hx, hh, hst, hy⟩ := h.sale_spec
  have hclock : (p.updClock c f).clocks.get c = f (p.clocks.get c) := PerClock.get_upd_self _ _ _
  refine ⟨⟨h.sound.supply, fun d => (h.sound.queue d).of_reads rfl rfl, fun d => ?_⟩, h.tables, by rw [hclock, hl]; exact h.lot⟩
  by_cases hd : d = c
  · subst hd
    have hand := h.sound.hand d
    refine ⟨?_, hand.told, fun {j} hj => ?_, hand.reported⟩
    · have := hand.one
      rwa [Part.inHand, hclock, hl]
    · rw [hclock, hl, hi] at hj
      cases hj
      refine ⟨hh, x, hx, hst, fun y hm => ?_⟩
      rw [hclock] at hm
      rcases hc y hm with hm | hm
      · exact hy y hm
      · exact hsale ▸ hm
  · have hother : (p.updClock c f).clocks.get d = p.clocks.get d := PerClock.get_upd_ne _ _ hd
    refine (h.sound.hand d).of_handSame h.sound.supply (h.sound.queue d) (Part.SameAt.hand (.of_supply rfl rfl rfl ?_ ?_))
    · rw [hother]
    · rw [hother]; exact List.Subset.refl _

/-- A change of the Clock Unit that drops candidates at most. -/
theorem Part.Selling.updClock_subset {f : ClockUnit → ClockUnit} (h : p.Selling c)
    (hl : (f (p.clocks.get c)).run.lot = (p.clocks.get c).run.lot)
    (hc : (f (p.clocks.get c)).candidates ⊆ (p.clocks.get c).candidates) : (p.updClock c f).Selling c :=
  h.updClock hl fun _ hy => .inl (hc hy)

/-! ### The record of the lot on sale -/

/-- A lot on offer that gets another record, in a state it may have while its trolley is presented: the agreement holds when it holds for
what the lot's clock has in hand. -/
theorem Part.Sound.modifyLot {i : Nat} {x : Lot} {f : Lot → Lot} (h : p.Sound 0) (hs : p.supply.TablesOk) (hx : p.lot i = some x)
    (hst : x.state = .presented ∨ x.state = .selling) (hf : x.Restated (f x)) (hns : (f x).state ≠ .staged)
    (hna : (f x).state ≠ .announced) (hq : q.supply = { p.supply with lots := p.supply.lots.modify i f })
    (hother : ∀ d, d ≠ x.clock → q.channels.get d = p.channels.get d ∧ q.clocks.get d = p.clocks.get d)
    (hreported : (p.channels.get x.clock).clockToSupply ⊆ (q.channels.get x.clock).clockToSupply)
    (hdone : (f x).state.done = true → i ∈ (q.channels.get x.clock).clockToSupply) (hhand : q.HandSound x.clock) : q.Sound 0 := by
  have hlot : ∀ j, q.lot j = if j = i then (p.lot j).map f else p.lot j := fun j => by
    rw [Part.lot, hq]
    exact Table.find_modify _ _ _ _
  have hi : q.lot i = some (f x) := by rw [hlot, if_pos rfl, hx, Option.map_some]
  have hne : ∀ {j}, j ≠ i → q.lot j = p.lot j := fun hj => by rw [hlot, if_neg hj]
  have hqueue : ∀ d, q.supply.queues.get d = p.supply.queues.get d := fun d => by rw [hq]
  have hsub : ∀ d, (p.channels.get d).clockToSupply ⊆ (q.channels.get d).clockToSupply := fun d => by
    by_cases hd : d = x.clock
    · subst hd; exact hreported
    · rw [(hother d hd).1]; exact List.Subset.refl _
  have hxs : x.state ≠ .staged := by rcases hst with hst | hst <;> rw [hst] <;> decide
  have hxd : x.state.done = false := by rcases hst with hst | hst <;> rw [hst] <;> rfl
  have hstaged : ∀ d, q.supply.stagedOn d = p.supply.stagedOn d := fun d => by
    rw [hq]
    refine Table.count_modify (g := f) hs.lotsRise fun y hy => ?_
    obtain rfl : x = y := Option.some.inj (hx.symm.trans hy)
    simp [hns, hxs]
  refine ⟨?_, fun d => ?_, fun d => ?_⟩
  · rw [hq]
    refine h.supply.updLot hx hf fun t _ hallow => ?_
    rw [TrolleyState.allows_selling hallow hst]
    simp [TrolleyState.allows, hns, hna]
  · have hqd := h.queue d
    refine ⟨by rw [hqueue]; exact hqd.nodup, by rw [hqueue, hstaged]; exact hqd.fits, fun {j} hj => ?_,
      fun {j y} hy hc hys hyd => ?_⟩
    · rw [hqueue] at hj
      obtain ⟨y, hy, hc, hys, hrep⟩ := hqd.queued hj
      by_cases hji : j = i
      · subst hji
        obtain rfl : x = y := Option.some.inj (hx.symm.trans hy)
        subst hc
        exact ⟨f x, hi, hf.clock, hns, hdone⟩
      · exact ⟨y, by rw [hne hji, hy], hc, hys, fun hd => hsub d (hrep hd)⟩
    · rw [hqueue]
      by_cases hji : j = i
      · subst hji
        obtain rfl : f x = y := Option.some.inj (hi.symm.trans hy)
        exact hqd.waits hx (hf.clock.symm.trans hc) hxs hxd
      · exact hqd.waits ((hne hji).symm.trans hy) hc hys hyd
  · by_cases hd : d = x.clock
    · subst hd; exact hhand
    · obtain ⟨hch, hcl⟩ := hother d hd
      refine (h.hand d).of_handSame h.supply (h.queue d) ⟨by rw [hch], by rw [hch], by rw [hcl], by rw [hcl]; exact List.Subset.refl _,
        fun _ hh => by rw [hqueue]; exact hh, fun {j y} _ _ hc _ hy => ?_, fun {n t} ht _ hp => ?_⟩
      · have hji : j ≠ i := by
          rintro rfl
          obtain rfl : x = y := Option.some.inj (hx.symm.trans hy)
          exact hd hc.symm
        rw [hne hji, hy]
      · rw [Part.trolley, hq]
        exact (congrArg (Option.map Trolley.state) ht).trans (by rw [Option.map_some, hp])

/-- A clock with a lot in its run record has nothing else in hand. -/
theorem Part.HandSound.only_sold (h : p.HandSound c) {i : Nat} (hi : (p.clocks.get c).run.lot = some i) :
    (p.channels.get c).headsTold = [] ∧ (p.channels.get c).clockToSupply = [] := by
  have := h.one
  rw [Part.inHand, hi] at this
  simp only [Option.toList_some, List.length_cons, List.length_nil] at this
  exact ⟨List.length_eq_zero_iff.mp (by omega), List.length_eq_zero_iff.mp (by omega)⟩

/-- Another record for the lot on sale, while it stays on offer. -/
theorem Part.Selling.updLot {f : Lot → Lot} (h : p.Selling c) (hf : (p.saleLot c).Restated (f (p.saleLot c)))
    (hst : (f (p.saleLot c)).state = .presented ∨ (f (p.saleLot c)).state = .selling)
    (hq : ∀ y ∈ (p.clocks.get c).candidates, y.quantity ≤ (f (p.saleLot c)).remaining) :
    (p.updLot (p.saleId c) f).Selling c := by
  obtain ⟨i, x, hi, hid, hsale, hx, hh, hxst, hy⟩ := h.sale_spec
  rw [hsale] at hf hst hq
  rw [hid]
  obtain ⟨hc, -⟩ := (h.sound.queue c).head hh hx
  obtain ⟨ht, hr⟩ := (h.sound.hand c).only_sold hi
  subst hc
  refine ⟨h.sound.modifyLot h.tables hx hxst hf ?_ ?_ rfl (fun _ _ => ⟨rfl, rfl⟩) (List.Subset.refl _) (fun hd => ?_) ?_, ?_, h.lot⟩
  · rcases hst with hst | hst <;> rw [hst] <;> decide
  · rcases hst with hst | hst <;> rw [hst] <;> decide
  · rcases hst with hst | hst <;> rw [hst] at hd <;> cases hd
  · have hhand := h.sound.hand x.clock
    refine ⟨hhand.one, fun {j} hj => ?_, fun {j} hj => ?_, fun {j} hj => ?_⟩
    · rw [show ((p.updLot i f).channels.get x.clock).headsTold = [] from ht] at hj
      cases hj
    · obtain rfl : i = j := Option.some.inj (hi.symm.trans hj)
      refine ⟨hh, f x, ?_, hst, hq⟩
      exact (Table.find_modify_self _ _ _).trans (by rw [show Table.find p.supply.lots i = some x from hx]; rfl)
    · rw [show ((p.updLot i f).channels.get x.clock).clockToSupply = [] from hr] at hj
      cases hj
  · exact h.tables.of_tables (Part.updLot_tables _ _ _)

/-! ### A lot done (R29) -/

theorem lotDone_supply (c : ClockId) (o : LotOutcome) (p : Part) :
    (lotDone c o p).supply = { p.supply with lots := p.supply.lots.modify (p.saleId c) (fun t => { t with state := o.lotState }) } := by
  simp [lotDone]

theorem lotDone_clocks (c : ClockId) (o : LotOutcome) (p : Part) :
    (lotDone c o p).clocks = p.clocks.upd c (fun k => { k.cleared with state := .idle }) := by
  simp [lotDone]

/-- The Clock Unit reports the lot done, and is told nothing. -/
theorem lotDone_channels (c : ClockId) (o : LotOutcome) (p : Part) :
    (∀ d, d ≠ c → (lotDone c o p).channels.get d = p.channels.get d) ∧
    ((lotDone c o p).channels.get c).headsTold = (p.channels.get c).headsTold ∧
    ((lotDone c o p).channels.get c).clockToSupply = (p.channels.get c).clockToSupply ++ [p.saleId c] := by
  refine ⟨fun d hd => ?_, ?_⟩
  · simp [lotDone, PerClock.get_upd_ne _ _ hd]
  · simp [lotDone, Channels.headsTold]

theorem LotOutcome.lotState_done (o : LotOutcome) : o.lotState.done = true := by cases o <;> rfl

/-- A lot done keeps the Supply Unit in agreement: it heads the queue until its report is taken. -/
theorem lotDone_sound (h : p.Selling c) (o : LotOutcome) : (lotDone c o p).Sound 0 := by
  obtain ⟨i, x, hi, hid, -, hx, hh, hxst, -⟩ := h.sale_spec
  obtain ⟨hc, -⟩ := (h.sound.queue c).head hh hx
  obtain ⟨ht, hr⟩ := (h.sound.hand c).only_sold hi
  obtain ⟨hother, htold, hreported⟩ := lotDone_channels c o p
  rw [ht] at htold
  rw [hr, hid, List.nil_append] at hreported
  subst hc
  have hclock : (lotDone x.clock o p).clocks.get x.clock = { (p.clocks.get x.clock).cleared with state := .idle } := by
    rw [lotDone_clocks]; exact PerClock.get_upd_self _ _ _
  refine h.sound.modifyLot h.tables (q := lotDone x.clock o p) (f := fun y => { y with state := o.lotState }) hx hxst
    ⟨rfl, rfl, fun hu => hu⟩ ?_ ?_ ?_ (fun d hd => ⟨hother d hd, ?_⟩) ?_ (fun _ => ?_) ?_
  · cases o <;> simp [LotOutcome.lotState]
  · cases o <;> simp [LotOutcome.lotState]
  · rw [lotDone_supply, hid]
  · rw [lotDone_clocks]; exact PerClock.get_upd_ne _ _ hd
  · rw [hr]; exact List.nil_subset _
  · simp [hreported]
  · refine ⟨?_, fun {j} hj => ?_, fun {j} hj => ?_, fun {j} hj => ?_⟩
    · rw [Part.inHand, htold, hreported, hclock]
      exact le_rfl
    · rw [htold] at hj
      cases hj
    · rw [hclock] at hj
      cases hj
    · rw [hreported, List.mem_singleton] at hj
      subst hj
      have hlot : (lotDone x.clock o p).lot j = some { x with state := o.lotState } := by
        rw [Part.lot, lotDone_supply, hid]
        refine (Table.find_modify_self p.supply.lots j (fun y => { y with state := o.lotState })).trans ?_
        rw [show Table.find p.supply.lots j = some x from hx, Option.map_some]
      obtain ⟨t, htr, -, -, hallow⟩ := h.sound.supply.trolley_of_lot hx
      refine ⟨by rw [lotDone_supply]; exact hh, _, hlot, o.lotState_done, ?_⟩
      rw [Part.trolley, lotDone_supply]
      exact (congrArg (Option.map Trolley.state) htr).trans (by rw [Option.map_some, TrolleyState.allows_selling hallow hxst])

/-! ### The end of a decision (R35, R56 to R58) -/

theorem ClockUnit.endDecision_selling (h : p.Selling c) : (p.updClock c ClockUnit.endDecision).Selling c :=
  h.updClock_subset rfl (List.nil_subset _)

theorem noAward_sound (h : p.Selling c) : (noAward c p).Sound 0 := by
  have h' := ClockUnit.endDecision_selling h
  simp only [noAward]
  split
  · exact lotDone_sound h' _
  · split
    · exact h'.sound.of_sale (by simp)
    · exact h'.sound.of_sale (by simp)

theorem tryCandidates_sound (xs : List Candidate) (h : p.Selling c) : (tryCandidates c xs p).Sound 0 := by
  induction xs generalizing p with
  | nil => exact noAward_sound h
  | cons x rest ih =>
    rw [tryCandidates]
    split
    · exact h.sound.of_sale (by simp)
    · exact ih (h.of_sale (by simp))

theorem expireWindow_sound (h : p.Selling c) : (expireWindow c p).Sound 0 :=
  tryCandidates_sound _ (h.of_sale (by simp))

theorem expireIfZero_sound (h : p.Selling c) : (expireIfZero c p).Sound 0 := by
  unfold expireIfZero
  split
  · exact expireWindow_sound h
  · exact h.sound

theorem afterRefusal_sound (rest : List Candidate) (h : p.Selling c) : (afterRefusal c rest p).Sound 0 := by
  unfold afterRefusal
  split
  · exact noAward_sound (h.of_sale (by simp))
  · exact tryCandidates_sound rest h

theorem takeRefuse_sound {cause : Cause} (h : ∀ price, (p.clocks.get c).inFlight = some price → p.Selling c) (hp : p.Sound 0) :
    (takeRefuse c cause p).Sound 0 := by
  unfold takeRefuse
  split
  · next hi => exact afterRefusal_sound _ ((h _ hi).of_sale (by simp))
  · exact hp

theorem windowStep_sound (h : (p.clocks.get c).state = .window → p.Selling c) (hp : p.Sound 0) : (windowStep c p).Sound 0 := by
  unfold windowStep
  split
  · exact hp
  · split
    · next hst => exact expireWindow_sound ((h hst).of_sale (by simp))
    · exact hp

/-! ### The award (R59, R60) -/

/-- The picks of a trolley are no part of the agreement. -/
theorem mergeSlotPick_selling (x : Candidate) (h : p.Selling c) : (mergeSlotPick c x p).Selling c := by
  unfold mergeSlotPick
  split
  · exact h
  · next n hn =>
    obtain ⟨t, ht, -, -⟩ := h.sound.supply.slot hn
    have hsound : (p.updTrolley n (fun t => { t with picks := mergePick t.picks x.buyer x.point x.quantity })).Sound 0 := by
      refine h.sound.updSupply (h.sound.supply.updTrolley h.tables ht ⟨rfl, rfl, rfl, rfl, Iff.rfl⟩ Iff.rfl fun _ _ _ _ ha => ha) rfl
        (fun _ => Iff.rfl) (fun d => (h.sound.queue d).fits) fun {m u} hu hp => ?_
      refine (congrArg (Option.map Trolley.state) 
        (Table.find_modify p.supply.trolleys n m (fun t => { t with picks := mergePick t.picks x.buyer x.point x.quantity }))).trans ?_
      rw [hu]
      split <;> simp [hp]
    exact ⟨hsound, h.tables.of_tables (Part.updTrolley_tables _ _ _), h.lot⟩

/-- An award takes the units of the candidate tried, once the other candidates are gone. -/
theorem recordAward_selling {x : Candidate} {price : Nat} (h : p.Selling c) (hx : x.quantity ≤ (p.saleLot c).remaining)
    (hn : (p.clocks.get c).candidates = []) : (recordAward c x price p).Selling c := by
  obtain ⟨i, y, -, -, hsale, hy, -, hyst, -⟩ := h.sale_spec
  have hlot : (p.updLot (p.saleId c) (fun t => { t with remaining := t.remaining - x.quantity, sold := t.sold + x.quantity })).Selling c := by
    refine h.updLot ⟨rfl, rfl, fun hu => ?_⟩ (by rw [hsale]; exact hyst) (by simp [hn])
    show (p.saleLot c).announced = (p.saleLot c).remaining - x.quantity + ((p.saleLot c).sold + x.quantity)
    omega
  exact (mergeSlotPick_selling x hlot).of_sale (Part.updRun_sale (fun _ => rfl))

/-- The end of the decision can be written before the award is recorded. -/
theorem recordAward_endDecision (x : Candidate) (price : Nat) :
    (recordAward c x price p).updClock c ClockUnit.endDecision = recordAward c x price (p.updClock c ClockUnit.endDecision) := by
  have hid : (p.updClock c ClockUnit.endDecision).saleId c = p.saleId c := by
    simp [Part.saleId, ClockUnit.endDecision]
  simp only [recordAward, hid, mergeSlotPick]
  cases hn : p.supply.slots.get c with
  | none => simp [hn, Part.updRun, Part.updClock, Part.updLot, ClockUnit.endDecision]
  | some n => simp [hn, Part.updRun, Part.updClock, Part.updLot, ClockUnit.endDecision, Part.updTrolley]

/-- The sale once the candidates are gone is read from the sale. -/
theorem Part.sale_endDecision (hs : q.sale = p.sale) :
    (q.updClock c ClockUnit.endDecision).sale = (p.updClock c ClockUnit.endDecision).sale := by
  obtain ⟨ha, hsupply, hclocks, hchannels⟩ := Part.sale_eq_iff.mp hs
  refine Part.sale_eq_iff.mpr ⟨ha, hsupply, fun d => ?_, hchannels⟩
  simp only [Part.updClock_clocks, PerClock.get_upd]
  split
  · exact ⟨(hclocks d).1, rfl⟩
  · exact hclocks d

/-- What follows an award keeps the agreement when the candidates' end does. -/
theorem afterAward_sound {price : Nat} (h : (p.updClock c ClockUnit.endDecision).Selling c) : (afterAward c price p).Sound 0 := by
  simp only [afterAward]
  split
  · exact lotDone_sound h _
  · split
    · exact lotDone_sound (h.of_sale (by simp)) _
    · split
      · exact h.sound.of_sale (by simp)
      · split
        · exact h.sound.of_sale (by simp)
        · exact h.sound.of_sale (by simp)

theorem takeGrant_sound {line : Nat} (h : ∀ price, (p.clocks.get c).inFlight = some price → p.Selling c) (hp : p.Sound 0) :
    (takeGrant c line p).Sound 0 := by
  unfold takeGrant
  split
  · next x rest price hu hi =>
    have h := h price hi
    obtain ⟨i, y, -, -, hsale, -, -, -, hq⟩ := h.sale_spec
    have hmem : x ∈ (p.clocks.get c).candidates := by
      have : x ∈ (p.clocks.get c).undecided := by rw [hu]; exact List.mem_cons_self
      exact List.mem_of_mem_drop this
    have h' := ClockUnit.endDecision_selling h
    have hend : (p.updClock c ClockUnit.endDecision).saleLot c = p.saleLot c := by
      simp [Part.saleLot, Part.saleId, Part.lot, ClockUnit.endDecision]
    have haward := recordAward_selling (x := x) (price := price) h' (by rw [hend, hsale]; exact hq x hmem)
      (by simp [ClockUnit.endDecision])
    refine afterAward_sound (Part.Selling.of_sale (recordAward_endDecision x price ▸ haward) ?_)
    exact Part.sale_endDecision (by simp)
  · exact hp

/-! ### Candidates entered (R48 to R52, R90) -/

theorem mem_insertCandidate {x y : Candidate} {ys : List Candidate} : y ∈ insertCandidate x ys ↔ y = x ∨ y ∈ ys := by
  induction ys with
  | nil => simp [insertCandidate]
  | cons z rest ih =>
    rw [insertCandidate]
    split
    · simp
    · simp only [List.mem_cons, ih]
      exact or_left_comm

/-- A quantity clamped lies within the remaining units. -/
theorem clampQuantity_le (m r asked : Nat) : clampQuantity m r asked ≤ r := by
  simp only [clampQuantity]
  split <;> omega

variable {x : Candidate}

/-- A candidate within the remaining units may be entered, behind a change that drops others at most. -/
theorem Part.Selling.enter {f : ClockUnit → ClockUnit} (h : p.Selling c) (hx : x.quantity ≤ (p.saleLot c).remaining)
    (hl : ∀ k, (f k).run.lot = k.run.lot) (hc : ∀ k, (f k).candidates ⊆ k.candidates) :
    (p.updClock c (fun k => (f k).enter x)).Selling c := by
  refine h.updClock (hl _) fun y hy => ?_
  rcases mem_insertCandidate.mp hy with rfl | hy
  · exact .inr hx
  · exact .inl (hc _ hy)

theorem enterCandidate_selling (h : p.Selling c) (hx : x.quantity ≤ (p.saleLot c).remaining) : (enterCandidate c x p).Selling c := by
  unfold enterCandidate enterWithRoom enterFull
  split
  · have := h.enter (f := id) hx (fun _ => rfl) fun _ => List.Subset.refl _
    simp only
    split
    · exact this.of_sale (by simp)
    · exact this
  · split
    · exact h
    · split
      · exact (h.enter (f := fun k => { k with candidates := k.candidates.dropLast }) hx (fun _ => rfl)
          fun k => List.dropLast_subset _).of_sale (by simp)
      · exact h.of_sale (by simp)

theorem enterAgain_selling {held : Candidate} (h : p.Selling c) (hx : x.quantity ≤ (p.saleLot c).remaining) :
    (enterAgain c x held p).Selling c := by
  unfold enterAgain
  split
  · exact h.enter (f := fun k => { k with candidates := k.candidates.filter (fun y => decide (y.buyer ≠ x.buyer)) }) hx (fun _ => rfl)
      fun k => List.filter_subset_self _
  · exact h.of_sale (by simp)

theorem admitBid_sound {b : BidHandover} (h : p.Selling c) : (admitBid c b p).Sound 0 := by
  simp only [admitBid]
  have hx : (p.pressedCandidate c b).quantity ≤ (p.saleLot c).remaining := clampQuantity_le _ _ _
  have hr : ∀ r, (p.clockReport c r).Selling c ∧ (p.pressedCandidate c b).quantity ≤ ((p.clockReport c r).saleLot c).remaining :=
    fun r => ⟨h.of_sale (by simp), by rw [Part.saleLot_of_sale (p := p) (by simp)]; exact hx⟩
  refine expireIfZero_sound ?_
  split
  · exact enterAgain_selling (hr _).1 (hr _).2
  · exact enterCandidate_selling (hr _).1 (hr _).2

theorem fireOrder_selling {o : Order} (h : p.Selling c) : (fireOrder c o p).Selling c := by
  have hx : (p.orderCandidate c o).quantity ≤ (p.saleLot c).remaining := clampQuantity_le _ _ _
  exact enterCandidate_selling (h.of_sale (by simp)) (by rw [Part.saleLot_of_sale (p := p) (by simp)]; exact hx)

theorem offerOrder_selling {n : Nat} (h : p.Selling c) : (offerOrder c p n).Selling c := by
  unfold offerOrder
  split
  · exact h
  · split
    · exact h
    · split
      · exact h
      · split
        · exact h
        · split
          · exact h.of_sale (by simp)
          · exact fireOrder_selling h

theorem offerPosition_sound (h : p.Selling c) : (offerPosition c p).Sound 0 := by
  refine expireIfZero_sound ?_
  generalize (p.clocks.get c).orders.map Order.number = ns
  induction ns generalizing p with
  | nil => exact h
  | cons n rest ih => exact ih (offerOrder_selling h)

/-! ### Runs and strides (R30, R32, R33, R36) -/

theorem startRun_sound {price : Nat} {announce : OutBody → Part → Part} {differs : Bool} (h : p.Selling c)
    (ha : ∀ b q, (announce b q).sale = q.sale) : (startRun c price announce differs p).Sound 0 := by
  obtain ⟨i, x, -, -, hsale, -, -, hst, hq⟩ := h.sale_spec
  have hstarted : (p.updLot (p.saleId c) (fun t => t.started price)).Selling c := by
    rw [← hsale] at hst hq
    refine h.updLot ?_ ?_ ?_ <;> unfold Lot.started <;> split
    · exact .refl _
    · exact ⟨rfl, rfl, fun hu => hu⟩
    · exact hst
    · exact .inr rfl
    · exact hq
    · exact hq
  simp only [startRun]
  refine offerPosition_sound (hstarted.of_sale ?_)
  simp [ha, RunRecord.started, ClockUnit.clearFired]

theorem strideGoesOn_sound (h : p.Selling c) : (strideGoesOn c p).Sound 0 := offerPosition_sound (h.of_sale (by simp))

theorem strideStep_sound (hr : (p.clocks.get c).state = .running ∨ (p.clocks.get c).state = .floor → p.Selling c) (hp : p.Sound 0) :
    (strideStep c p).Sound 0 := by
  unfold strideStep
  split
  · exact hp
  · split
    · next t _ _ hst =>
      have h := (hr (.inl hst)).of_sale (Part.reach_sale p t)
      simp only [strideRunning]
      split
      · exact lotDone_sound h _
      · refine strideGoesOn_sound (h.of_sale ?_)
        split <;> simp
    · next t _ _ hst =>
      have h := (hr (.inr hst)).of_sale (Part.reach_sale p t)
      simp only [strideFloor]
      split
      · exact lotDone_sound h _
      · exact strideGoesOn_sound (h.of_sale (by simp))
    · exact hp

theorem restartStep_sound (hr : (p.clocks.get c).state = .restart → p.Selling c) (hp : p.Sound 0) : (restartStep c p).Sound 0 := by
  unfold restartStep
  split
  · exact hp
  · split
    · next hst => exact startRun_sound ((hr hst).of_sale (by simp)) fun b q => Part.toConsole_sale q c b
    · exact hp

end

end Sys2Proof.Machine
end

section
/-! Each Clock Unit in agreement with itself, and the changes of a Clock Unit that keep it so (R25, R26, R49, R84). -/

namespace Sys2Proof.Machine

/-! ### What a clock state says -/

namespace ClockState

/-- A lot is in the run record. -/
def sells : ClockState → Bool | .idle => false | _ => true
/-- Position and dwell count are 0. -/
def rests : ClockState → Bool | .idle | .ready => true | _ => false
/-- The stride timer runs. -/
def descends : ClockState → Bool | .running | .floor => true | _ => false
/-- Candidates may wait, and a hold may be pending. -/
def pends : ClockState → Bool | .window | .awarding => true | _ => false
/-- A decision is under way. -/
def awards : ClockState → Bool | .awarding => true | _ => false
def isWindow : ClockState → Bool | .window => true | _ => false
def isRestart : ClockState → Bool | .restart => true | _ => false
def isHeld : ClockState → Bool | .held => true | _ => false

end ClockState

/-! ### The order table and the candidate list -/

/-- R49: the order of the candidate list. -/
def Candidate.Before (x y : Candidate) : Prop := x.position < y.position ∨ (x.position = y.position ∧ x.arrival < y.arrival)

/-- R84: an order table with the number the next placement tries first. -/
structure OrdersFit (os : List Order) (next : Nat) : Prop where
  room : os.length ≤ Config.maxOrders
  buyers : (os.map Order.buyer).Nodup
  numbers : (os.map Order.number).Nodup
  range : ∀ o ∈ os, 1 ≤ o.number ∧ o.number ≤ Config.maxCount16
  nextPos : 1 ≤ next
  nextMax : next ≤ Config.maxCount16

/-- R49: a candidate list with the number of the last arrival. -/
structure ListFit (xs : List Candidate) (arrivals : Nat) : Prop where
  room : xs.length ≤ Config.maxCandidates
  buyers : (xs.map Candidate.buyer).Nodup
  order : xs.Pairwise Candidate.Before
  arrived : ∀ x ∈ xs, x.arrival ≤ arrivals

theorem ListFit.nil (n : Nat) : ListFit [] n := ⟨Nat.zero_le _, List.nodup_nil, List.Pairwise.nil, fun _ h => by cases h⟩

/-! ### A Clock Unit in a state -/

/-- A Clock Unit as it should be in a state, but for the decision and the stop window's end. The unit's own state is not read, so that a
change of state is a change of the fields that the two states differ in. -/
structure ClockUnit.Fits (st : ClockState) (k : ClockUnit) : Prop where
  lot : k.run.lot.isSome = st.sells
  least : k.run.minPrice.isSome = st.sells
  rest : st.rests = true → k.run.position = 0 ∧ k.run.dwell = 0 ∧ (k.run.price = 0 ∨ (st = .ready ∧ Config.readyKeepsPrice = true))
  run : k.run.run ≤ Config.maxCount16
  heldFrom : k.run.heldFrom.isSome = st.isHeld
  hold : k.run.pendingHold = true → st.pends = true
  withdrawal : k.run.pendingWithdrawal = true → st.awards = true
  cause : k.run.holdCause.isSome = (st.isHeld || k.run.pendingHold)
  stride : k.strideTimer.isSome = st.descends
  window : k.windowTimer.isSome = st.isWindow
  restart : k.restartTimer.isSome = st.isRestart
  list : ListFit k.candidates k.arrivals
  noList : st.pends = false → k.candidates = []
  orders : OrdersFit k.orders k.nextOrder

/-- R56, R57: the decision as it should be in a state: in AWARDING a candidate is being tried, with its reservation in flight. -/
structure ClockUnit.Decides (st : ClockState) (k : ClockUnit) : Prop where
  inFlight : k.inFlight.isSome = st.awards
  tried : st.awards = true → k.tried < k.candidates.length

/-- A Clock Unit as it should be, but that a window of 0 ms may stand. -/
structure ClockUnit.OkSoon (k : ClockUnit) : Prop where
  fits : k.Fits k.state
  decides : k.Decides k.state

theorem ClockUnit.ok_iff {k : ClockUnit} : k.Ok ↔ k.OkSoon ∧ (k.state = .window → k.config.stopWindow ≠ 0) := by
  have hsells : ∀ b : Bool, (b = true ↔ k.state ≠ .idle) ↔ b = k.state.sells := by
    intro b; cases k.state <;> simp [ClockState.sells]
  have hheld : ∀ b : Bool, (b = true ↔ k.state = .held) ↔ b = k.state.isHeld := by
    intro b; cases k.state <;> simp [ClockState.isHeld]
  have hcause : ∀ b d : Bool, (b = true ↔ k.state = .held ∨ d = true) ↔ b = (k.state.isHeld || d) := by
    intro b d; cases b <;> cases d <;> cases k.state <;> simp [ClockState.isHeld]
  have hpends : (k.state = .window ∨ k.state = .awarding) ↔ k.state.pends = true := by
    cases k.state <;> simp [ClockState.pends]
  have hrests : (k.state = .idle ∨ k.state = .ready) ↔ k.state.rests = true := by
    cases k.state <;> simp [ClockState.rests]
  have hawards : k.state = .awarding ↔ k.state.awards = true := by
    cases k.state <;> simp [ClockState.awards]
  have hdescends : ∀ b : Bool, (b = true ↔ k.state = .running ∨ k.state = .floor) ↔ b = k.state.descends := by
    intro b; cases k.state <;> simp [ClockState.descends]
  have hwindow : ∀ b : Bool, (b = true ↔ k.state = .window) ↔ b = k.state.isWindow := by
    intro b; cases k.state <;> simp [ClockState.isWindow]
  have hrestart : ∀ b : Bool, (b = true ↔ k.state = .restart) ↔ b = k.state.isRestart := by
    intro b; cases k.state <;> simp [ClockState.isRestart]
  have hflight : ∀ b : Bool, (b = true ↔ k.state = .awarding) ↔ b = k.state.awards := by
    intro b; cases k.state <;> simp [ClockState.awards]
  have hlist : ∀ P : Prop, (k.state ≠ .window → k.state ≠ .awarding → P) ↔ (k.state.pends = false → P) := by
    intro P; cases k.state <;> simp [ClockState.pends]
  simp only [ClockUnit.Ok, ClockUnit.RunOk, ClockUnit.TimersOk, ClockUnit.CandidatesOk, ClockUnit.OrdersOk, hsells, hheld, hcause,
    hpends, hrests, hdescends, hwindow, hrestart, hflight, hlist]
  constructor
  · rintro ⟨⟨h1, h2, h3, h4, h5, h6, h7, h8⟩, ⟨t1, t2, t3, t4, t5⟩, ⟨c1, c2, c3, c4, c5, c6⟩, ⟨o1, o2, o3, o4, o5, o6⟩⟩
    exact ⟨⟨⟨h1, h2, h3, h4, h5, h6, fun h => hawards.mp (h7 h), h8, t1, t2, t3, ⟨c1, c4, c5, c6⟩, c2, ⟨o1, o2, o3, o4, o5, o6⟩⟩,
      ⟨t4, fun h => c3 (hawards.mpr h)⟩⟩, t5⟩
  · rintro ⟨⟨⟨h1, h2, h3, h4, h5, h6, h7, h8, t1, t2, t3, ⟨c1, c4, c5, c6⟩, c2, ⟨o1, o2, o3, o4, o5, o6⟩⟩, ⟨t4, c3⟩⟩, t5⟩
    exact ⟨⟨h1, h2, h3, h4, h5, h6, fun h => hawards.mpr (h7 h), h8⟩, ⟨t1, t2, t3, t4, t5⟩,
      ⟨c1, c2, fun h => c3 (hawards.mp h), c4, c5, c6⟩, ⟨o1, o2, o3, o4, o5, o6⟩⟩

/-- Outside WINDOW the stop window says nothing. -/
theorem ClockUnit.OkSoon.ok {k : ClockUnit} (h : k.OkSoon) (hs : k.state ≠ .window) : k.Ok :=
  ClockUnit.ok_iff.mpr ⟨h, fun hw => absurd hw hs⟩

theorem ClockUnit.Ok.soon {k : ClockUnit} (h : k.Ok) : k.OkSoon := (ClockUnit.ok_iff.mp h).1

section
variable {k : ClockUnit} {st : ClockState}

theorem ClockUnit.OkSoon.fitsAt (h : k.OkSoon) (hs : k.state = st) : k.Fits st := hs ▸ h.fits
theorem ClockUnit.OkSoon.decidesAt (h : k.OkSoon) (hs : k.state = st) : k.Decides st := hs ▸ h.decides

end

end Sys2Proof.Machine
end

section
/-! The order table and the candidate list of a Clock Unit as they change: orders that end, a number taken, a candidate entered
(R49 to R52, R84, R86, R87). -/

namespace Sys2Proof.Machine

/-! ### Orders that end or are changed in place -/

/-- What tells an order from the others of its table. -/
def Order.key (o : Order) : Nat × Nat := (o.number, o.buyer)

section
variable {os vs : List Order} {next : Nat}

/-- An order table fits while orders leave it and the others keep their numbers and buyers. -/
theorem OrdersFit.of_keys (h : OrdersFit os next) (hk : (vs.map Order.key).Sublist (os.map Order.key)) : OrdersFit vs next := by
  have hbuyers : (vs.map Order.buyer).Sublist (os.map Order.buyer) := by
    simpa [Function.comp_def, Order.key] using hk.map Prod.snd
  have hnumbers : (vs.map Order.number).Sublist (os.map Order.number) := by
    simpa [Function.comp_def, Order.key] using hk.map Prod.fst
  refine ⟨?_, h.buyers.sublist hbuyers, h.numbers.sublist hnumbers, fun o ho => ?_, h.nextPos, h.nextMax⟩
  · have := hk.length_le
    have := h.room
    simp only [List.length_map] at *
    omega
  · obtain ⟨y, hy, hn⟩ := List.mem_map.mp (hnumbers.subset (List.mem_map_of_mem ho))
    exact hn ▸ h.range y hy

/-- Orders changed in place keep their keys. -/
theorem OrdersFit.map {f : Order → Order} {os : List Order} {n : Nat} (h : OrdersFit os n) (hf : ∀ o, (f o).key = o.key) :
    OrdersFit (os.map f) n := by
  refine h.of_keys ?_
  rw [List.map_map, show Order.key ∘ f = Order.key from funext hf]

theorem next16_range {n : Nat} (h : 1 ≤ n ∧ n ≤ Config.maxCount16) : 1 ≤ next16 n ∧ next16 n ≤ Config.maxCount16 := by
  unfold next16
  split
  · decide
  · omega

theorem OrdersFit.append {y : Order} (h : OrdersFit os next) (hroom : os.length < Config.maxOrders)
    (hb : ∀ o ∈ os, o.buyer ≠ y.buyer) (hn : ∀ o ∈ os, o.number ≠ y.number) (hr : 1 ≤ y.number ∧ y.number ≤ Config.maxCount16) :
    OrdersFit (os ++ [y]) (next16 y.number) := by
  refine ⟨by simpa using hroom, ?_, ?_, fun o ho => ?_, (next16_range hr).1, (next16_range hr).2⟩
  · simpa [List.nodup_append] using ⟨h.buyers, hb⟩
  · simpa [List.nodup_append] using ⟨h.numbers, hn⟩
  · rcases List.mem_append.mp ho with ho | ho
    · exact h.range o ho
    · rw [List.mem_singleton.mp ho]; exact hr

end

/-! ### The number a placement takes (R84) -/

/-- Counting on from a number of the range wraps round behind its end. -/
theorem next16_iterate {n : Nat} (h : 1 ≤ n ∧ n ≤ Config.maxCount16) (i : Nat) (hi : i ≤ Config.maxCount16) :
    next16^[i] n = if n + i ≤ Config.maxCount16 then n + i else n + i - Config.maxCount16 := by
  induction i with
  | zero => simp [h.2]
  | succ i ih =>
    rw [Function.iterate_succ_apply', ih (by omega), next16]
    split_ifs <;> omega

/-- Counting on comes to different numbers before it has gone round. -/
theorem next16_iterate_nodup {n m : Nat} (h : 1 ≤ n ∧ n ≤ Config.maxCount16) (hm : m ≤ Config.maxCount16) :
    ((List.range m).map (fun i => next16^[i] n)).Nodup := by
  refine List.Nodup.map_on (fun i hi j hj hij => ?_) List.nodup_range
  rw [List.mem_range] at hi hj
  rw [next16_iterate h i (by omega), next16_iterate h j (by omega)] at hij
  split_ifs at hij <;> omega

section
variable {k : ClockUnit} {n : Nat}

theorem ClockUnit.freeNumber_range (h : 1 ≤ n ∧ n ≤ Config.maxCount16) (t : Nat) :
    1 ≤ k.freeNumber t n ∧ k.freeNumber t n ≤ Config.maxCount16 := by
  induction t generalizing n with
  | zero => exact h
  | succ t ih =>
    rw [ClockUnit.freeNumber]
    split
    · exact ih (next16_range h)
    · exact h

/-- The search ends at a number that is not held, or has found all it tried held. -/
theorem ClockUnit.freeNumber_or (k : ClockUnit) (t n : Nat) :
    k.numberHeld (k.freeNumber t n) = false ∨ ∀ i, i < t → k.numberHeld (next16^[i] n) = true := by
  induction t generalizing n with
  | zero => exact .inr fun i hi => absurd hi (Nat.not_lt_zero i)
  | succ t ih =>
    rw [ClockUnit.freeNumber]
    split
    · next hn =>
      refine (ih (next16 n)).imp id fun hall i hi => ?_
      cases i with
      | zero => exact hn
      | succ i => exact hall i (by omega)
    · next hn => exact .inl (by simpa using hn)

/-- The number a candidate of an order names. -/
def CandOrigin.number : CandOrigin → Option Nat
  | .order n => some n
  | .pressed _ _ => none

/-- The numbers that a placement may not take. -/
def ClockUnit.heldNumbers (k : ClockUnit) : List Nat :=
  k.orders.map Order.number ++ k.candidates.filterMap (fun x => x.origin.number)

theorem ClockUnit.numberHeld_iff : k.numberHeld n = true ↔ n ∈ k.heldNumbers := by
  have hc : ∀ x : Candidate, (match x.origin with | .order i => decide (i = n) | .pressed _ _ => false) = true ↔
      x.origin.number = some n := by
    intro x; cases x.origin <;> simp [CandOrigin.number]
  rw [ClockUnit.numberHeld, Bool.or_eq_true, List.any_eq_true, List.any_eq_true, ClockUnit.heldNumbers, List.mem_append,
    List.mem_map, List.mem_filterMap]
  refine or_congr (exists_congr fun o => ?_) (exists_congr fun x => and_congr_right fun _ => hc x)
  simp

/-- R84: at most 16 orders and 8 candidates hold a number, so 25 tries find one that is free. -/
theorem ClockUnit.takeNumber_free (ho : k.orders.length ≤ Config.maxOrders) (hx : k.candidates.length ≤ Config.maxCandidates)
    (hn : 1 ≤ k.nextOrder ∧ k.nextOrder ≤ Config.maxCount16) : k.numberHeld k.takeNumber = false := by
  refine (k.freeNumber_or _ _).resolve_right fun hall => ?_
  have hnodup := next16_iterate_nodup hn (show Config.maxOrders + Config.maxCandidates + 1 ≤ Config.maxCount16 by decide)
  have hsub : (List.range (Config.maxOrders + Config.maxCandidates + 1)).map (fun i => next16^[i] k.nextOrder) ⊆ k.heldNumbers :=
      fun m hm => by
    obtain ⟨i, hi, rfl⟩ := List.mem_map.mp hm
    exact ClockUnit.numberHeld_iff.mp (hall i (List.mem_range.mp hi))
  have hle := (List.subperm_of_subset hnodup hsub).length_le
  have hcand := List.length_filterMap_le (fun x : Candidate => x.origin.number) k.candidates
  simp only [ClockUnit.heldNumbers, List.length_map, List.length_range, List.length_append] at hle
  omega

end

/-! ### Candidates entered and taken away (R49 to R52) -/

theorem insertCandidate_perm (x : Candidate) (ys : List Candidate) : (insertCandidate x ys).Perm (x :: ys) := by
  induction ys with
  | nil => exact .refl _
  | cons y rest ih =>
    rw [insertCandidate]
    split
    · exact .refl _
    · exact (ih.cons y).trans (.swap x y rest)

/-- A candidate that arrives after those of the list has its place behind every one of a lower or an equal position. -/
theorem insertCandidate_order {x : Candidate} {ys : List Candidate} (h : ys.Pairwise Candidate.Before)
    (hx : ∀ y ∈ ys, y.arrival < x.arrival) : (insertCandidate x ys).Pairwise Candidate.Before := by
  induction ys with
  | nil => exact List.pairwise_singleton _ _
  | cons y rest ih =>
    obtain ⟨hy, hrest⟩ := List.pairwise_cons.mp h
    rw [insertCandidate]
    split
    · next hlt =>
      refine List.pairwise_cons.mpr ⟨fun z hz => .inl ?_, h⟩
      rcases List.mem_cons.mp hz with rfl | hz
      · exact hlt
      · rcases hy z hz with hlt' | ⟨heq, -⟩ <;> omega
    · next hge =>
      refine List.pairwise_cons.mpr ⟨fun z hz => ?_, ih hrest fun z hz => hx z (List.mem_cons_of_mem _ hz)⟩
      rcases mem_insertCandidate.mp hz with rfl | hz
      · have := hx y List.mem_cons_self
        unfold Candidate.Before
        omega
      · exact hy z hz

section
variable {xs vs : List Candidate} {n : Nat} {x : Candidate}

theorem ListFit.sublist (h : ListFit xs n) (hs : vs.Sublist xs) : ListFit vs n :=
  ⟨hs.length_le.trans h.room, h.buyers.sublist (hs.map _), h.order.sublist hs, fun y hy => h.arrived y (hs.subset hy)⟩

/-- A candidate of a buyer who has none in a list with room is entered with the next arrival number. -/
theorem ListFit.enter (h : ListFit xs n) (hroom : xs.length < Config.maxCandidates) (hb : ∀ y ∈ xs, y.buyer ≠ x.buyer) :
    ListFit (insertCandidate { x with arrival := n + 1 } xs) (n + 1) := by
  have hperm := insertCandidate_perm { x with arrival := n + 1 } xs
  refine ⟨?_, ?_, insertCandidate_order h.order fun y hy => Nat.lt_succ_of_le (h.arrived y hy), fun y hy => ?_⟩
  · rw [hperm.length_eq]; exact hroom
  · refine ((hperm.map Candidate.buyer).nodup_iff).mpr ?_
    simpa using ⟨hb, h.buyers⟩
  · rcases mem_insertCandidate.mp hy with rfl | hy
    · exact le_rfl
    · exact (h.arrived y hy).trans (Nat.le_succ n)

end

end Sys2Proof.Machine
end

section
/-! The changes of one Clock Unit that a command is made of, and what each keeps (spec 02, 03, 05): orders that end, a state entered, a lot
done, the end of a decision. -/

namespace Sys2Proof.Machine

/-! ### A clock between two changes -/

/-- One Clock Unit has a property, and the others are as they should be. -/
def Part.With (c : ClockId) (P : ClockUnit → Prop) (p : Part) : Prop := P (p.clocks.get c) ∧ ∀ d, d ≠ c → (p.clocks.get d).Ok

section
variable {p q : Part} {c : ClockId} {P Q : ClockUnit → Prop}

theorem Part.ClocksOk.with (h : p.ClocksOk) (c : ClockId) : p.With c ClockUnit.Ok := ⟨h c, fun d _ => h d⟩

theorem Part.With.clocksOk (h : p.With c ClockUnit.Ok) : p.ClocksOk := fun d => by
  by_cases hd : d = c
  · exact hd ▸ h.1
  · exact h.2 d hd

theorem Part.ClocksOk.of_clocks (h : p.ClocksOk) (hc : q.clocks = p.clocks) : q.ClocksOk := fun d => by rw [hc]; exact h d

theorem Part.With.of_clocks (h : p.With c P) (hc : q.clocks = p.clocks) : q.With c P := by unfold Part.With; rw [hc]; exact h

theorem Part.With.imp (h : p.With c P) (hP : P (p.clocks.get c) → Q (p.clocks.get c)) : p.With c Q := ⟨hP h.1, h.2⟩

/-- A change of the clock's own record. -/
theorem Part.With.change {f : ClockUnit → ClockUnit} (h : p.With c P) (hq : q.clocks = p.clocks.upd c f)
    (hf : P (p.clocks.get c) → Q (f (p.clocks.get c))) : q.With c Q := by
  unfold Part.With
  rw [hq]
  refine ⟨?_, fun d hd => ?_⟩
  · rw [PerClock.get_upd_self]; exact hf h.1
  · rw [PerClock.get_upd_ne _ _ hd]; exact h.2 d hd

theorem Part.With.updClock {f : ClockUnit → ClockUnit} (h : p.With c P) (hf : P (p.clocks.get c) → Q (f (p.clocks.get c))) :
    (p.updClock c f).With c Q := h.change rfl hf

theorem Part.With.updRun {f : RunRecord → RunRecord} (h : p.With c P)
    (hf : P (p.clocks.get c) → Q { p.clocks.get c with run := f (p.clocks.get c).run }) : (p.updRun c f).With c Q :=
  h.change (Part.updRun_clocks p c f) hf

end

/-! ### Orders that end or are marked -/

/-- A Clock Unit that differs in its orders alone, of which none is new and none has another number or buyer. -/
def ClockUnit.Trimmed (k k' : ClockUnit) : Prop :=
  ∃ vs, k' = { k with orders := vs } ∧ (vs.map Order.key).Sublist (k.orders.map Order.key)

/-- What trimming the orders of a Clock Unit keeps. -/
def Trimmable (P : ClockUnit → Prop) : Prop := ∀ k k' : ClockUnit, P k → k.Trimmed k' → P k'

/-- One Clock Unit is trimmed, and the others stand. -/
def Part.Trims (c : ClockId) (p q : Part) : Prop :=
  (p.clocks.get c).Trimmed (q.clocks.get c) ∧ ∀ d, d ≠ c → q.clocks.get d = p.clocks.get d

section
variable {p q r : Part} {c : ClockId} {P : ClockUnit → Prop} {k k' k'' : ClockUnit}

theorem ClockUnit.Trimmed.refl (k : ClockUnit) : k.Trimmed k := ⟨k.orders, rfl, .refl _⟩

theorem ClockUnit.Trimmed.trans (h : k.Trimmed k') (h' : k'.Trimmed k'') : k.Trimmed k'' := by
  obtain ⟨vs, rfl, hv⟩ := h
  obtain ⟨ws, rfl, hw⟩ := h'
  exact ⟨ws, rfl, hw.trans hv⟩

theorem Part.Trims.of_clocks (h : q.clocks = p.clocks) : Part.Trims c p q := by
  unfold Part.Trims
  rw [h]
  exact ⟨.refl _, fun _ _ => rfl⟩

theorem Part.Trims.trans (h : Part.Trims c p q) (h' : Part.Trims c q r) : Part.Trims c p r :=
  ⟨h.1.trans h'.1, fun d hd => (h'.2 d hd).trans (h.2 d hd)⟩

theorem Part.Trims.of_orders {f : List Order → List Order} (hq : q.clocks = p.clocks.upd c (fun k => { k with orders := f k.orders }))
    (hf : ((f (p.clocks.get c).orders).map Order.key).Sublist ((p.clocks.get c).orders.map Order.key)) : Part.Trims c p q := by
  unfold Part.Trims
  rw [hq]
  exact ⟨⟨_, PerClock.get_upd_self _ _ _, hf⟩, fun d hd => PerClock.get_upd_ne _ _ hd⟩

/-- Orders changed in place keep their keys. -/
theorem Part.Trims.of_map {f : Order → Order} (hf : ∀ o, (f o).key = o.key)
    (hq : q.clocks = p.clocks.upd c (fun k => { k with orders := k.orders.map f })) : Part.Trims c p q := by
  refine .of_orders hq ?_
  rw [List.map_map, show Order.key ∘ f = Order.key from funext hf]

theorem Part.With.trim (h : p.With c P) (ht : Part.Trims c p q) (hP : Trimmable P) : q.With c P :=
  ⟨hP _ _ h.1 ht.1, fun d hd => by rw [ht.2 d hd]; exact h.2 d hd⟩

theorem foldl_trims {α : Type} {f : Part → α → Part} (hf : ∀ x p, Part.Trims c p (f p x)) (xs : List α) (p : Part) :
    Part.Trims c p (xs.foldl f p) := by
  induction xs generalizing p with
  | nil => exact .of_clocks rfl
  | cons x rest ih => exact (hf x p).trans (ih _)

theorem endOrder_trims (o : Order) (reason : EndReason) (t : DeskTarget) (tag : Option Nat) (p : Part) :
    Part.Trims c p (endOrder c o reason t tag p) :=
  .of_orders (f := fun os => os.filter (fun x => decide (x.number ≠ o.number))) rfl (List.filter_sublist.map _)

theorem endIfCredit_trims (e : Cause) (x : Candidate) (p : Part) : Part.Trims c p (endIfCredit c e x p) := by
  unfold endIfCredit
  split
  · split
    · exact endOrder_trims _ _ _ _ p
    · exact .of_clocks rfl
  · exact .of_clocks rfl

theorem refuseCandidate_trims (offered : Option Nat) (e : Cause) (x : Candidate) (p : Part) :
    Part.Trims c p (refuseCandidate c offered e p x) :=
  Part.Trims.trans (.of_clocks rfl) (endIfCredit_trims e x _)

theorem refuseAll_trims (e : Cause) (xs : List Candidate) (p : Part) : Part.Trims c p (refuseAll c e xs p) :=
  foldl_trims (fun x p => refuseCandidate_trims none e x p) xs p

theorem endAll_trims (reason : EndReason) (os : List Order) (p : Part) : Part.Trims c p (endAll c reason os p) :=
  foldl_trims (fun o p => endOrder_trims o reason o.target none p) os p

theorem countWin_trims (x : Candidate) (p : Part) : Part.Trims c p (countWin c x p) := by
  unfold countWin
  split
  · exact .of_clocks rfl
  · split
    · exact .of_clocks rfl
    · split
      · exact endOrder_trims _ _ _ _ p
      · exact .of_map (fun o => by split <;> rfl) rfl

theorem markFired_trims (n : Nat) (p : Part) : Part.Trims c p (markFired c n p) :=
  .of_map (fun o => by split <;> rfl) rfl

end

/-! ### What a Clock Unit is ready for -/

/-- A Clock Unit that fits a state, with no reservation in flight. -/
def ClockUnit.Poised (st : ClockState) (k : ClockUnit) : Prop := k.Fits st ∧ k.inFlight = none

/-- A Clock Unit with no candidate and no reservation in flight. -/
structure ClockUnit.Free (k : ClockUnit) : Prop where
  candidates : k.candidates = []
  inFlight : k.inFlight = none
  run : k.run.run ≤ Config.maxCount16
  orders : OrdersFit k.orders k.nextOrder

/-- A Clock Unit in a state, as it should be but that a window of 0 ms may stand. -/
def ClockUnit.StandsIn (st : ClockState) (k : ClockUnit) : Prop := k.OkSoon ∧ k.state = st

section
variable {p q : Part} {c : ClockId} {k : ClockUnit} {st : ClockState}

theorem Fits.trimmable (st : ClockState) : Trimmable (ClockUnit.Fits st) := by
  rintro k _ h ⟨vs, rfl, hv⟩
  exact { h with orders := h.orders.of_keys hv }

theorem Poised.trimmable (st : ClockState) : Trimmable (ClockUnit.Poised st) := by
  rintro k _ ⟨h, hi⟩ ⟨vs, rfl, hv⟩
  exact ⟨{ h with orders := h.orders.of_keys hv }, hi⟩

theorem OkSoon.trimmable : Trimmable ClockUnit.OkSoon := by
  rintro k _ ⟨h, hd⟩ ⟨vs, rfl, hv⟩
  exact ⟨{ h with orders := h.orders.of_keys hv }, { hd with }⟩

theorem StandsIn.trimmable (st : ClockState) : Trimmable (ClockUnit.StandsIn st) := by
  rintro k k' ⟨h, hs⟩ ht
  refine ⟨OkSoon.trimmable k k' h ht, ?_⟩
  obtain ⟨vs, rfl, -⟩ := ht
  exact hs

theorem Ok.trimmable : Trimmable ClockUnit.Ok := by
  intro k k' h ht
  obtain ⟨hs, hw⟩ := ClockUnit.ok_iff.mp h
  refine ClockUnit.ok_iff.mpr ⟨OkSoon.trimmable k k' hs ht, ?_⟩
  obtain ⟨vs, rfl, -⟩ := ht
  exact hw

theorem Part.ClocksOk.trim (h : p.ClocksOk) (ht : Part.Trims c p q) : q.ClocksOk := ((h.with c).trim ht Ok.trimmable).clocksOk

theorem ClockUnit.Ok.standsIn (h : k.Ok) (hs : k.state = st) : k.StandsIn st := ⟨h.soon, hs⟩

theorem ClockUnit.StandsIn.ok (h : k.StandsIn st) (hw : st ≠ .window) : k.Ok := h.1.ok (h.2 ▸ hw)

theorem ClockUnit.StandsIn.fits (h : k.StandsIn st) : k.Fits st := h.1.fitsAt h.2

theorem ClockUnit.StandsIn.poised (h : k.StandsIn st) (ha : st.awards = false) : k.Poised st :=
  ⟨h.fits, by have := (h.1.decidesAt h.2).inFlight; rw [ha] at this; simpa using this⟩

theorem ClockUnit.StandsIn.free (h : k.StandsIn st) (hp : st.pends = false) : k.Free :=
  ⟨h.fits.noList hp, (h.poised (by revert hp; cases st <;> decide)).2, h.fits.run, h.fits.orders⟩

/-- A state entered is stood in. -/
theorem ClockUnit.Poised.entered (h : k.Poised st) (ha : st.awards = false) : ({ k with state := st } : ClockUnit).StandsIn st := by
  obtain ⟨h, hi⟩ := h
  exact ⟨⟨⟨h.lot, h.least, h.rest, h.run, h.heldFrom, h.hold, h.withdrawal, h.cause, h.stride, h.window, h.restart, h.list, h.noList,
    h.orders⟩, ⟨by simp [hi, ha], fun ht => by rw [ha] at ht; cases ht⟩⟩, rfl⟩

theorem Part.With.enter (h : p.With c (ClockUnit.Poised st)) (ha : st.awards = false) :
    (enterState c st p).With c (ClockUnit.StandsIn st) :=
  h.change (enterState_clocks c st p) fun hk => hk.entered ha

theorem Part.With.settle (h : p.With c (ClockUnit.StandsIn st)) (hw : st ≠ .window) : p.ClocksOk := (h.imp fun hk => hk.ok hw).clocksOk

/-! ### A lot done (R29) -/

theorem ClockUnit.Free.cleared (h : k.Free) : ({ k.cleared with state := .idle } : ClockUnit).Ok := by
  obtain ⟨hx, hi, hr, ho⟩ := h
  refine ClockUnit.OkSoon.ok (k := { k.cleared with state := .idle }) ⟨?_, ?_⟩ nofun
  · exact ⟨rfl, rfl, fun _ => ⟨rfl, rfl, .inl rfl⟩, hr, rfl, nofun, nofun, rfl, rfl, rfl, rfl, hx ▸ ListFit.nil _, fun _ => hx, ho⟩
  · exact ⟨by simp [ClockUnit.cleared, hi, ClockState.awards], nofun⟩

theorem lotDone_clocksOk (h : p.With c ClockUnit.Free) (o : LotOutcome) : (lotDone c o p).ClocksOk :=
  (h.change (lotDone_clocks c o p) fun hk => hk.cleared).clocksOk

/-! ### A clock with a lot and nothing pending -/

/-- A Clock Unit with a lot, no candidate, no hold and nothing pending; what its stride timer and its restart timer should be, its state says. -/
structure ClockUnit.Calm (k : ClockUnit) : Prop where
  lot : k.run.lot.isSome = true
  least : k.run.minPrice.isSome = true
  run : k.run.run ≤ Config.maxCount16
  heldFrom : k.run.heldFrom = none
  hold : k.run.pendingHold = false
  withdrawal : k.run.pendingWithdrawal = false
  cause : k.run.holdCause = none
  window : k.windowTimer = none
  candidates : k.candidates = []
  inFlight : k.inFlight = none
  orders : OrdersFit k.orders k.nextOrder

/-- The states in which a clock with a lot is calm. -/
def ClockState.calm : ClockState → Bool | .ready | .running | .floor | .restart => true | _ => false

theorem ClockUnit.Calm.free (h : k.Calm) : k.Free := ⟨h.candidates, h.inFlight, h.run, h.orders⟩

/-- A calm state has a lot and none of what a window, a decision or a hold brings. -/
theorem ClockState.calm_spec (h : st.calm = true) :
    st.sells = true ∧ st.pends = false ∧ st.awards = false ∧ st.isHeld = false ∧ st.isWindow = false := by
  revert h; cases st <;> decide

theorem ClockUnit.StandsIn.calm (h : k.StandsIn st) (hst : st.calm = true) : k.Calm := by
  obtain ⟨hsells, hpends, hawards, hheld, hwindow⟩ := ClockState.calm_spec hst
  have hfree := h.free hpends
  have hf := h.fits
  have hp : k.run.pendingHold = false := Bool.eq_false_iff.mpr fun ht => by
    have := hf.hold ht
    rw [hpends] at this
    cases this
  refine ⟨hf.lot.trans hsells, hf.least.trans hsells, hf.run, ?_, hp, ?_, ?_, ?_, hfree.candidates, hfree.inFlight, hf.orders⟩
  · simpa [hheld] using hf.heldFrom
  · refine Bool.eq_false_iff.mpr fun ht => ?_
    have := hf.withdrawal ht
    rw [hawards] at this
    cases this
  · simpa [hheld, hp] using hf.cause
  · simpa [hwindow] using hf.window

/-- A calm clock is ready for a calm state once its timers and, for READY, its position are those of the state. -/
theorem ClockUnit.Calm.poised (h : k.Calm) (hst : st.calm = true) (hs : k.strideTimer.isSome = st.descends)
    (hr : k.restartTimer.isSome = st.isRestart)
    (hrest : st.rests = true → k.run.position = 0 ∧ k.run.dwell = 0 ∧ (k.run.price = 0 ∨ (st = .ready ∧ Config.readyKeepsPrice = true))) :
    k.Poised st := by
  obtain ⟨hsells, -, -, hheld, hwindow⟩ := ClockState.calm_spec hst
  refine ⟨⟨h.lot.trans hsells.symm, h.least.trans hsells.symm, hrest, h.run, by simp [h.heldFrom, hheld], fun ht => ?_, fun ht => ?_,
    by simp [h.cause, h.hold, hheld], hs, by simp [h.window, hwindow], hr, ?_, fun _ => h.candidates, h.orders⟩, h.inFlight⟩
  · rw [h.hold] at ht; cases ht
  · rw [h.withdrawal] at ht; cases ht
  · rw [h.candidates]; exact ListFit.nil _

/-! ### Operations that end in a calm state or in HELD -/

theorem enterReady_clocks (c : ClockId) (p : Part) : (enterReady c p).clocks = p.clocks.upd c (fun k =>
    { k with state := .ready, restartTimer := none, run := { k.run with position := 0, price := k.run.readyPrice, dwell := 0 } }) := by
  simp [enterReady]

theorem enterRestart_clocks (c : ClockId) (p : Part) : (enterRestart c p).clocks = p.clocks.upd c (fun k =>
    { k with state := .restart, restartTimer := some (p.now + k.config.restartDelay) }) := by
  simp [enterRestart, startRestart]

theorem applyHold_clocks (c : ClockId) (back : HeldFrom) (p : Part) : (applyHold c back p).clocks = p.clocks.upd c (fun k =>
    { k with state := .held, run := { k.run with heldFrom := some back, pendingHold := false } }) := by
  simp [applyHold]

theorem holdNow_clocks (c : ClockId) (back : HeldFrom) (e : HoldCause) (p : Part) :
    (holdNow c back e p).clocks = p.clocks.upd c (fun k =>
      { k with state := .held, strideTimer := none, restartTimer := none,
               run := { k.run with heldFrom := some back, holdCause := some e } }) := by
  simp [holdNow]

/-- A stride started in the state that is entered with it. -/
theorem enterState_startStride_clocks (c : ClockId) (st : ClockState) (p : Part) :
    (enterState c st (startStride c p)).clocks = p.clocks.upd c (fun k =>
      { k with state := st, strideTimer := some (p.now + k.config.stridePeriod) }) := by
  simp [startStride]

theorem enterReady_clocksOk (h : p.With c (fun k => k.Calm ∧ k.strideTimer = none)) : (enterReady c p).ClocksOk := by
  refine Part.With.settle (st := .ready) (h.change (enterReady_clocks c p) fun ⟨hk, hs⟩ => ?_) (by decide)
  refine ClockUnit.Poised.entered (k := { p.clocks.get c with restartTimer := none, run := _ })
    (ClockUnit.Calm.poised { hk with } rfl (by rw [hs]; rfl) rfl fun _ => ⟨rfl, rfl, ?_⟩) rfl
  exact (RunRecord.readyPrice_cases _).imp id fun hkeep => ⟨rfl, hkeep.1⟩

theorem enterRestart_with (h : p.With c (fun k => k.Calm ∧ k.strideTimer = none)) :
    (enterRestart c p).With c (ClockUnit.StandsIn .restart) :=
  h.change (enterRestart_clocks c p) fun ⟨hk, hs⟩ =>
    ClockUnit.Poised.entered (k := { p.clocks.get c with restartTimer := some _ })
      (ClockUnit.Calm.poised { hk with } rfl (by rw [hs]; rfl) rfl nofun) rfl

/-- A clock that descends, from its first stride on. -/
theorem enterDescending_with (h : p.With c (fun k => k.Calm ∧ k.restartTimer = none)) (hst : st = .running ∨ st = .floor) :
    (enterState c st (startStride c p)).With c (ClockUnit.StandsIn st) :=
  h.change (enterState_startStride_clocks c st p) fun ⟨hk, hr⟩ => by
    rcases hst with rfl | rfl <;>
      exact ClockUnit.Poised.entered (k := { p.clocks.get c with strideTimer := some _ })
        (ClockUnit.Calm.poised { hk with } rfl rfl (by rw [hr]; rfl) nofun) rfl

theorem holdNow_clocksOk {back : HeldFrom} {e : HoldCause} (h : p.With c ClockUnit.Calm) : (holdNow c back e p).ClocksOk := by
  refine Part.With.settle (st := .held) (h.change (holdNow_clocks c back e p) fun hk => ?_) (by decide)
  refine ClockUnit.Poised.entered (k := { p.clocks.get c with strideTimer := none, restartTimer := none, run := _ }) ⟨?_, hk.inFlight⟩ rfl
  exact ⟨hk.lot, hk.least, nofun, hk.run, rfl, fun ht => by simp [hk.hold] at ht, fun ht => by simp [hk.withdrawal] at ht, rfl, rfl,
    by simp [hk.window, ClockState.isWindow], rfl, by simp only [hk.candidates]; exact ListFit.nil _, fun _ => hk.candidates, hk.orders⟩

/-! ### Ends of a decision (R35, R42, R61) -/

/-- A Clock Unit in which a decision has just ended. -/
structure ClockUnit.Decided (k : ClockUnit) : Prop where
  fits : k.Fits .awarding
  candidates : k.candidates = []
  inFlight : k.inFlight = none

theorem ClockUnit.Fits.endDecision (h : k.Fits .awarding) : k.endDecision.Decided :=
  ⟨{ h with list := ListFit.nil _, noList := fun _ => rfl }, rfl, rfl⟩

theorem ClockUnit.Decided.free (h : k.Decided) : k.Free := ⟨h.candidates, h.inFlight, h.fits.run, h.fits.orders⟩

theorem ClockUnit.Decided.timers (h : k.Decided) : k.strideTimer = none ∧ k.windowTimer = none ∧ k.restartTimer = none :=
  ⟨by simpa [ClockState.descends] using h.fits.stride, by simpa [ClockState.isWindow] using h.fits.window,
    by simpa [ClockState.isRestart] using h.fits.restart⟩

/-- With nothing pending a clock is calm behind a decision. -/
theorem ClockUnit.Decided.calm (h : k.Decided) (hw : k.run.pendingWithdrawal = false) (hh : k.run.pendingHold = false) : k.Calm := by
  obtain ⟨-, hwindow, -⟩ := h.timers
  exact ⟨h.fits.lot, h.fits.least, h.fits.run, by simpa [ClockState.isHeld] using h.fits.heldFrom, hh, hw,
    by simpa [ClockState.isHeld, hh] using h.fits.cause, hwindow, h.candidates, h.inFlight, h.fits.orders⟩

/-- A pending hold applies behind the decision. -/
theorem ClockUnit.Decided.held (h : k.Decided) (hw : k.run.pendingWithdrawal = false) (hh : k.run.pendingHold = true) (back : HeldFrom) :
    ({ k with state := .held, run := { k.run with heldFrom := some back, pendingHold := false } } : ClockUnit).StandsIn .held := by
  refine ClockUnit.Poised.entered (k := { k with run := { k.run with heldFrom := some back, pendingHold := false } }) (st := .held)
    ⟨?_, h.inFlight⟩ rfl
  have hcause := h.fits.cause
  exact { h.fits with
    rest := nofun
    heldFrom := rfl
    hold := nofun
    withdrawal := fun ht => by simp [hw] at ht
    cause := hcause.trans (by rw [hh]; rfl)
    noList := fun _ => h.candidates }

theorem applyHold_clocksOk {back : HeldFrom}
    (h : p.With c (fun k => k.Decided ∧ k.run.pendingWithdrawal = false ∧ k.run.pendingHold = true)) :
    (applyHold c back p).ClocksOk :=
  Part.With.settle (st := .held) (h.change (applyHold_clocks c back p) fun ⟨hk, hw, hh⟩ => hk.held hw hh back) (by decide)

theorem noAward_clocksOk (h : p.With c (ClockUnit.Fits .awarding)) : (noAward c p).ClocksOk := by
  have hd : (p.updClock c ClockUnit.endDecision).With c ClockUnit.Decided := h.updClock fun hk => hk.endDecision
  simp only [noAward]
  split
  · exact lotDone_clocksOk (hd.imp fun hk => hk.free) _
  · next hw =>
    rw [Bool.not_eq_true] at hw
    split
    · next hh => exact applyHold_clocksOk (hd.imp fun hk => ⟨hk, hw, hh⟩)
    · next hh =>
      rw [Bool.not_eq_true] at hh
      have hcalm := hd.imp (Q := fun k => k.Calm ∧ k.restartTimer = none) fun hk => ⟨hk.calm hw hh, hk.timers.2.2⟩
      split
      · exact (enterDescending_with hcalm (.inr rfl)).settle (by decide)
      · exact (enterDescending_with hcalm (.inl rfl)).settle (by decide)

/-- The restart price is no part of what is checked. -/
theorem ClockUnit.Decided.repriced (h : k.Decided) (n : Nat) :
    ({ k with run := { k.run with restartPrice := some n, dwell := 0 } } : ClockUnit).Decided :=
  ⟨{ h.fits with rest := nofun }, h.candidates, h.inFlight⟩

theorem afterAward_clocksOk {price : Nat} (h : p.With c (ClockUnit.Fits .awarding)) : (afterAward c price p).ClocksOk := by
  have hd : (p.updClock c ClockUnit.endDecision).With c ClockUnit.Decided := h.updClock fun hk => hk.endDecision
  simp only [afterAward]
  split
  · exact lotDone_clocksOk (hd.imp fun hk => hk.free) _
  · split
    · exact lotDone_clocksOk (hd.updRun fun hk => (hk.repriced _).free) _
    · next hw =>
      rw [Bool.not_eq_true] at hw
      split
      · next hh => exact applyHold_clocksOk (hd.updRun fun hk => ⟨hk.repriced _, hw, hh⟩)
      · next hh =>
        rw [Bool.not_eq_true] at hh
        split
        · exact (enterRestart_with (hd.updRun fun hk => ⟨(hk.repriced _).calm hw hh, hk.timers.1⟩)).settle (by decide)
        · exact enterReady_clocksOk (hd.updRun fun hk => ⟨(hk.repriced _).calm hw hh, hk.timers.1⟩)

end

end Sys2Proof.Machine
end

section
/-! Every command of a clock keeps each Clock Unit in agreement with itself (R25, R26, R49, R84): the decision, bids, orders, runs, holds
and notices. -/

namespace Sys2Proof.Machine

section
variable {p q : Part} {c : ClockId} {k : ClockUnit} {st : ClockState}

/-! ### The decision (R55 to R60) -/

/-- A Clock Unit in AWARDING between two reservations, with the candidates not yet tried. -/
structure ClockUnit.Deciding (xs : List Candidate) (k : ClockUnit) : Prop where
  state : k.state = .awarding
  fits : k.Fits .awarding
  inFlight : k.inFlight = none
  left : k.undecided = xs

theorem Deciding.trimmable (xs : List Candidate) : Trimmable (ClockUnit.Deciding xs) := by
  rintro k _ ⟨hs, hf, hi, hl⟩ ⟨vs, rfl, hv⟩
  exact ⟨hs, { hf with orders := hf.orders.of_keys hv }, hi, hl⟩

/-- The list goes on with the tail of what is left. -/
theorem ClockUnit.undecided_cons {x : Candidate} {rest : List Candidate} (h : k.undecided = x :: rest) :
    k.tried < k.candidates.length ∧ k.candidates.drop (k.tried + 1) = rest := by
  have hlt : k.tried < k.candidates.length := by
    by_contra hge
    rw [ClockUnit.undecided, List.drop_eq_nil_of_le (by omega)] at h
    cases h
  refine ⟨hlt, ?_⟩
  rw [ClockUnit.undecided, List.drop_eq_getElem_cons hlt] at h
  exact (List.cons.inj h).2

/-- The candidate at the head has been tried. -/
theorem ClockUnit.Deciding.next {x : Candidate} {rest : List Candidate} (h : k.Deciding (x :: rest)) :
    ({ k with tried := k.tried + 1 } : ClockUnit).Deciding rest :=
  ⟨h.state, { h.fits with }, h.inFlight, (ClockUnit.undecided_cons h.left).2⟩

/-- R57: a reservation is in flight for the candidate at the head. -/
theorem ClockUnit.Deciding.reserved {x : Candidate} {rest : List Candidate} (h : k.Deciding (x :: rest)) (price : Nat) :
    ({ k with inFlight := some price } : ClockUnit).Ok := by
  refine ClockUnit.OkSoon.ok (k := { k with inFlight := some price }) ?_ (by rw [h.state]; nofun)
  have hfits : ({ k with inFlight := some price } : ClockUnit).Fits .awarding := { h.fits with }
  have hstate : ({ k with inFlight := some price } : ClockUnit).state = .awarding := h.state
  exact ⟨hstate ▸ hfits, by rw [hstate]; rfl, fun _ => (ClockUnit.undecided_cons h.left).1⟩

theorem sendReservation_clocks (x : Candidate) (p : Part) : (sendReservation c x p).clocks =
    p.clocks.upd c (fun k => { k with inFlight := some ((p.clocks.get c).run.priceOf x.position) }) := rfl

theorem tryCandidates_clocksOk {xs : List Candidate} (h : p.With c (ClockUnit.Deciding xs)) : (tryCandidates c xs p).ClocksOk := by
  induction xs generalizing p with
  | nil => exact noAward_clocksOk (h.imp fun hk => hk.fits)
  | cons x rest ih =>
    rw [tryCandidates]
    split
    · exact (h.change (sendReservation_clocks x p) fun hk => hk.reserved _).clocksOk
    · refine ih (Part.With.trim ?_ (refuseCandidate_trims none _ x _) (Deciding.trimmable rest))
      exact h.updClock fun hk => hk.next

/-- R55: the window's end, in the clock. -/
theorem ClockUnit.StandsIn.expired (h : k.StandsIn .window) :
    ({ k with windowTimer := none, tried := 0, state := .awarding } : ClockUnit).Deciding k.candidates := by
  have hf := h.fits
  exact ⟨rfl, { hf with rest := nofun, withdrawal := fun _ => rfl, window := rfl, noList := nofun }, (h.poised rfl).2, List.drop_zero⟩

theorem expireWindow_clocksOk (h : p.With c (ClockUnit.StandsIn .window)) : (expireWindow c p).ClocksOk := by
  simp only [expireWindow]
  refine tryCandidates_clocksOk ?_
  have hq : (enterState c .awarding (p.updClock c (fun k => { k with windowTimer := none, tried := 0 }))).clocks =
      p.clocks.upd c (fun k => { k with windowTimer := none, tried := 0, state := .awarding }) := by simp
  rw [hq, PerClock.get_upd_self]
  exact h.change hq fun hk => hk.expired

/-- R53: a window of 0 ms does not outlast the handling that opens it. -/
theorem expireIfZero_clocksOk (h : p.With c ClockUnit.OkSoon) : (expireIfZero c p).ClocksOk := by
  unfold expireIfZero
  split
  · next hz => exact expireWindow_clocksOk (h.imp fun hk => ⟨hk, hz.1⟩)
  · next hz => exact (h.imp fun hk => ClockUnit.ok_iff.mpr ⟨hk, fun hw hs => hz ⟨hw, hs⟩⟩).clocksOk

theorem windowStep_clocksOk (h : p.ClocksOk) : (windowStep c p).ClocksOk := by
  unfold windowStep
  split
  · exact h
  · split
    · next hw => exact expireWindow_clocksOk (p := p.reach _) ((h.with c).imp fun hk => hk.standsIn hw)
    · exact h

/-- R57: with a reservation in flight the clock is in AWARDING. -/
theorem ClockUnit.Ok.awarding_of_inFlight (h : k.Ok) {price : Nat} (hi : k.inFlight = some price) : k.state = .awarding := by
  have := h.soon.decides.inFlight
  rw [hi] at this
  cases hs : k.state <;> simp [hs, ClockState.awards] at this ⊢

/-- The candidate in flight is refused. -/
theorem ClockUnit.Ok.refused (h : k.Ok) {x : Candidate} {rest : List Candidate} {price : Nat} (hi : k.inFlight = some price)
    (hu : k.undecided = x :: rest) : ({ k with tried := k.tried + 1, inFlight := none } : ClockUnit).Deciding rest := by
  have hs := h.awarding_of_inFlight hi
  exact ⟨hs, { h.soon.fitsAt hs with }, rfl, (ClockUnit.undecided_cons hu).2⟩

theorem afterRefusal_clocksOk {rest : List Candidate} (h : p.With c (ClockUnit.Deciding rest)) : (afterRefusal c rest p).ClocksOk := by
  unfold afterRefusal
  split
  · exact noAward_clocksOk ((h.trim (refuseAll_trims _ rest p) (Deciding.trimmable rest)).imp fun hk => hk.fits)
  · exact tryCandidates_clocksOk h

theorem takeRefuse_clocksOk {e : Cause} (h : p.ClocksOk) : (takeRefuse c e p).ClocksOk := by
  unfold takeRefuse
  split
  · next x rest price hu hi =>
    refine afterRefusal_clocksOk (Part.With.trim ?_ (refuseCandidate_trims (some price) e x _) (Deciding.trimmable rest))
    exact (h.with c).updClock fun hk => hk.refused hi hu
  · exact h

theorem recordAward_clocks (x : Candidate) (price : Nat) (p : Part) : (recordAward c x price p).clocks =
    p.clocks.upd c (fun k => { k with run := { k.run with lastAward := some ⟨x.buyer, x.quantity, price⟩ } }) := by
  simp only [recordAward, mergeSlotPick]
  split <;> simp

theorem tellAward_clocks (x : Candidate) (price line : Nat) (p : Part) : (tellAward c x price line p).clocks = p.clocks := by
  simp [tellAward]

theorem takeGrant_clocksOk {line : Nat} (h : p.ClocksOk) : (takeGrant c line p).ClocksOk := by
  unfold takeGrant
  split
  · next x rest price hu hi =>
    have haward : (tellAward c x price line (recordAward c x price p)).With c (ClockUnit.Fits .awarding) := by
      refine Part.With.of_clocks (Part.With.change (h.with c) (recordAward_clocks x price p) fun hk => ?_) (tellAward_clocks x price line _)
      exact { hk.soon.fitsAt (hk.awarding_of_inFlight hi) with rest := nofun }
    exact afterAward_clocksOk ((haward.trim (refuseAll_trims _ rest _) (Fits.trimmable _)).trim (countWin_trims x _) (Fits.trimmable _))
  · exact h

/-! ### Candidates entered (R49 to R53) -/

/-- The states in which bids are admitted (R45). -/
def ClockState.bids : ClockState → Bool | .running | .floor | .window => true | _ => false

/-- A Clock Unit that admits bids. -/
def ClockUnit.Bidding (k : ClockUnit) : Prop := k.OkSoon ∧ k.state.bids = true

theorem Bidding.trimmable : Trimmable ClockUnit.Bidding := by
  rintro k k' ⟨h, hb⟩ ht
  refine ⟨OkSoon.trimmable k k' h ht, ?_⟩
  obtain ⟨vs, rfl, -⟩ := ht
  exact hb

theorem ClockUnit.StandsIn.bidding (h : k.StandsIn st) (hst : st.bids = true) : k.Bidding := ⟨h.1, by rw [h.2]; exact hst⟩

/-- A clock that admits bids descends or is in its window. -/
theorem ClockUnit.Bidding.cases (h : k.Bidding) :
    ((k.state = .running ∨ k.state = .floor) ∧ k.Calm) ∨ k.StandsIn .window := by
  obtain ⟨h, hb⟩ := h
  cases hs : k.state with
  | running => exact .inl ⟨.inl rfl, ClockUnit.StandsIn.calm ⟨h, hs⟩ rfl⟩
  | floor => exact .inl ⟨.inr rfl, ClockUnit.StandsIn.calm ⟨h, hs⟩ rfl⟩
  | window => exact .inr ⟨h, hs⟩
  | _ => rw [hs] at hb; cases hb

/-- Another candidate list in the window. -/
theorem ClockUnit.StandsIn.relist (h : k.StandsIn .window) {xs : List Candidate} {n : Nat} (hx : ListFit xs n) :
    ({ k with candidates := xs, arrivals := n } : ClockUnit).StandsIn .window := by
  have hs : ({ k with candidates := xs, arrivals := n } : ClockUnit).state = .window := h.2
  have hf : ({ k with candidates := xs, arrivals := n } : ClockUnit).Fits .window := { h.fits with list := hx, noList := nofun }
  have hd : ({ k with candidates := xs, arrivals := n } : ClockUnit).Decides .window := ⟨(h.1.decidesAt h.2).inFlight, nofun⟩
  exact ⟨⟨hs ▸ hf, hs ▸ hd⟩, hs⟩

theorem openWindow_clocks (p : Part) : (openWindow c p).clocks = p.clocks.upd c (fun k =>
    { k with state := .window, strideTimer := none, windowTimer := some (p.now + k.config.stopWindow) }) := by
  simp [openWindow]

/-- R53: the first candidate of a run that descends opens the window. -/
theorem ClockUnit.Calm.opened (h : k.Calm) (hr : k.restartTimer = none) (t : Nat) {xs : List Candidate} {n : Nat} (hx : ListFit xs n) :
    ({ k with state := .window, strideTimer := none, windowTimer := some t, candidates := xs, arrivals := n } : ClockUnit).StandsIn
      .window := by
  refine ClockUnit.Poised.entered
    (k := { k with strideTimer := none, windowTimer := some t, candidates := xs, arrivals := n }) (st := .window) ⟨?_, h.inFlight⟩ rfl
  exact ⟨h.lot, h.least, nofun, h.run, by simp [h.heldFrom, ClockState.isHeld], fun _ => rfl, fun ht => by simp [h.withdrawal] at ht,
    by simp [h.cause, h.hold, ClockState.isHeld], rfl, rfl, by simp [hr, ClockState.isRestart], hx, nofun, h.orders⟩

theorem enterWithRoom_clocks (x : Candidate) (p : Part) : (enterWithRoom c x p).clocks =
    if (p.clocks.get c).state = .running ∨ (p.clocks.get c).state = .floor then
      p.clocks.upd c (fun k =>
        { k.enter x with state := .window, strideTimer := none, windowTimer := some (p.now + k.config.stopWindow) })
    else p.clocks.upd c (fun k => k.enter x) := by
  simp only [enterWithRoom]
  split
  · rw [openWindow_clocks]; simp [ClockUnit.enter]
  · rfl

variable {x : Candidate}

theorem enterWithRoom_bidding (h : p.With c ClockUnit.Bidding) (hroom : (p.clocks.get c).candidates.length < Config.maxCandidates)
    (hx : ∀ y ∈ (p.clocks.get c).candidates, y.buyer ≠ x.buyer) : (enterWithRoom c x p).With c ClockUnit.Bidding := by
  have hlist := h.1.1.fits.list.enter hroom hx
  have hq := enterWithRoom_clocks (c := c) x p
  rcases h.1.cases with ⟨hs, hcalm⟩ | hw
  · rw [if_pos hs] at hq
    refine h.change hq fun hk => (hcalm.opened ?_ _ hlist).bidding rfl
    have hr := hk.1.fits.restart
    rcases hs with hs | hs <;> simpa [hs, ClockState.isRestart] using hr
  · rw [if_neg (by rw [hw.2]; decide)] at hq
    exact h.change hq fun _ => (hw.relist hlist).bidding rfl

theorem enterFull_bidding (h : p.With c ClockUnit.Bidding) (hfull : ¬ (p.clocks.get c).candidates.length < Config.maxCandidates)
    (hx : ∀ y ∈ (p.clocks.get c).candidates, y.buyer ≠ x.buyer) : (enterFull c x p).With c ClockUnit.Bidding := by
  unfold enterFull
  split
  · exact h
  · next last hlast =>
    split
    · refine Part.With.trim ?_ (refuseCandidate_trims none _ last _) Bidding.trimmable
      refine h.updClock fun hk => ?_
      have hsub := List.dropLast_sublist (p.clocks.get c).candidates
      have hlist := (hk.1.fits.list.sublist hsub).enter (x := x) ?_ fun y hy => hx y (hsub.subset hy)
      · rcases hk.cases with ⟨-, hcalm⟩ | hw
        · rw [hcalm.candidates] at hlast; cases hlast
        · exact (hw.relist hlist).bidding rfl
      · have := hk.1.fits.list.room
        rw [List.length_dropLast]
        have hpos : 0 < Config.maxCandidates := by decide
        omega
    · exact h.trim (refuseCandidate_trims none _ x p) Bidding.trimmable

theorem enterCandidate_bidding (h : p.With c ClockUnit.Bidding) (hx : ∀ y ∈ (p.clocks.get c).candidates, y.buyer ≠ x.buyer) :
    (enterCandidate c x p).With c ClockUnit.Bidding := by
  unfold enterCandidate
  split
  · next hroom => exact enterWithRoom_bidding h hroom hx
  · next hfull => exact enterFull_bidding h hfull hx

/-- R51: the buyer's earlier candidate makes room for the later one. -/
theorem enterAgain_bidding {held : Candidate} (h : p.With c ClockUnit.Bidding) (hm : held ∈ (p.clocks.get c).candidates)
    (hb : held.buyer = x.buyer) : (enterAgain c x held p).With c ClockUnit.Bidding := by
  unfold enterAgain
  split
  · refine h.updClock fun hk => ?_
    have hsub : ((p.clocks.get c).candidates.filter (fun y => decide (y.buyer ≠ x.buyer))).Sublist (p.clocks.get c).candidates :=
      List.filter_sublist
    have hlist := (hk.1.fits.list.sublist hsub).enter (x := x) ?_ fun y hy => by simpa using (List.mem_filter.mp hy).2
    · rcases hk.cases with ⟨-, hcalm⟩ | hw
      · rw [hcalm.candidates] at hm; cases hm
      · exact (hw.relist hlist).bidding rfl
    · refine lt_of_lt_of_le ?_ hk.1.fits.list.room
      exact List.length_filter_lt_length_iff_exists.mpr ⟨held, hm, by simp [hb]⟩
  · exact h.trim (refuseCandidate_trims none _ x p) Bidding.trimmable

/-- A buyer with no candidate in the list. -/
theorem ClockUnit.candidateOf_none {buyer : Nat} (h : k.candidateOf buyer = none) : ∀ y ∈ k.candidates, y.buyer ≠ buyer := by
  simpa [ClockUnit.candidateOf] using h

theorem ClockUnit.candidateOf_some {buyer : Nat} {y : Candidate} (h : k.candidateOf buyer = some y) :
    y ∈ k.candidates ∧ y.buyer = buyer :=
  ⟨List.mem_of_find?_eq_some h, by simpa using List.find?_some h⟩

theorem admitBid_clocksOk {b : BidHandover} (h : p.With c ClockUnit.Bidding) : (admitBid c b p).ClocksOk := by
  simp only [admitBid]
  refine expireIfZero_clocksOk (Part.With.imp (P := ClockUnit.Bidding) ?_ fun hk => hk.1)
  split
  · next held hheld =>
    obtain ⟨hm, hb⟩ := ClockUnit.candidateOf_some hheld
    exact enterAgain_bidding (h.of_clocks rfl) hm hb
  · next hnone => exact enterCandidate_bidding (h.of_clocks rfl) (ClockUnit.candidateOf_none hnone)

theorem takeAdmittedBid_clocksOk {b : BidHandover} (h : p.ClocksOk) : (takeAdmittedBid c b p).ClocksOk := by
  have hadmit : ∀ st, (p.clocks.get c).state = st → st.bids = true → (admitBid c b p).ClocksOk := fun st hs hb =>
    admitBid_clocksOk ((h.with c).imp fun hk => (hk.standsIn hs).bidding hb)
  unfold takeAdmittedBid
  split
  · exact h.of_clocks rfl
  · split
    · next hs => exact hadmit _ hs rfl
    · next hs => exact hadmit _ hs rfl
    · next hs => exact hadmit _ hs rfl
    all_goals exact h.of_clocks rfl

/-! ### A position offered (R88 to R90) -/

theorem fireOrder_bidding {o : Order} (h : p.With c ClockUnit.Bidding) (hx : (p.clocks.get c).candidateOf o.buyer = none) :
    (fireOrder c o p).With c ClockUnit.Bidding := by
  refine enterCandidate_bidding ((h.trim (markFired_trims o.number p) Bidding.trimmable).of_clocks rfl) fun y hy => ?_
  refine ClockUnit.candidateOf_none hx y ?_
  have hc : ((markFired c o.number p).clocks.get c).candidates = (p.clocks.get c).candidates := by simp [markFired]
  exact hc ▸ hy

theorem offerOrder_bidding {n : Nat} (h : p.With c ClockUnit.Bidding) : (offerOrder c p n).With c ClockUnit.Bidding := by
  unfold offerOrder
  split
  · exact h
  · split
    · exact h
    · split
      · exact h
      · split
        · exact h
        · next hx =>
          split
          · exact h.trim (markFired_trims n p) Bidding.trimmable
          · exact fireOrder_bidding h (by simpa using hx)

theorem offerPosition_clocksOk (h : p.With c ClockUnit.Bidding) : (offerPosition c p).ClocksOk := by
  refine expireIfZero_clocksOk (Part.With.imp (P := ClockUnit.Bidding) ?_ fun hk => hk.1)
  generalize (p.clocks.get c).orders.map Order.number = ns
  induction ns generalizing p with
  | nil => exact h
  | cons n rest ih => exact ih (offerOrder_bidding h)

end

end Sys2Proof.Machine
end

section
/-! Runs, holds, withdrawals, notices and standing orders keep each Clock Unit in agreement with itself (spec 02, 05). -/

namespace Sys2Proof.Machine

section
variable {p q : Part} {c : ClockId} {k : ClockUnit} {st : ClockState}

/-! ### Runs (R26, R30, R36) -/

/-- The Clock Unit of a run that starts, before its position 0 is offered. -/
def ClockUnit.begun (price t : Nat) (st : ClockState) (k : ClockUnit) : ClockUnit :=
  { k.clearFired with run := k.run.started price k.config.priceStep, restartTimer := none, strideTimer := some t, state := st }

theorem startState_cases (price least : Nat) : startState price least = .running ∨ startState price least = .floor := by
  unfold startState
  split
  · exact .inr rfl
  · exact .inl rfl

theorem ClockUnit.Calm.begun (h : k.Calm) (price t : Nat) (hst : st = .running ∨ st = .floor) : (k.begun price t st).Bidding := by
  have hcalm : ({ k.clearFired with run := k.run.started price k.config.priceStep, restartTimer := none, strideTimer := some t } :
      ClockUnit).Calm := { h with run := next16_le h.run, orders := h.orders.map fun _ => rfl }
  rcases hst with rfl | rfl
  · exact ((hcalm.poised (st := .running) rfl rfl rfl nofun).entered rfl).bidding rfl
  · exact ((hcalm.poised (st := .floor) rfl rfl rfl nofun).entered rfl).bidding rfl

theorem startRun_clocksOk {price : Nat} {announce : OutBody → Part → Part} {differs : Bool} (h : p.With c ClockUnit.Calm)
    (ha : ∀ b q, (announce b q).clocks = q.clocks) : (startRun c price announce differs p).ClocksOk := by
  simp only [startRun]
  refine offerPosition_clocksOk (h.change
    (f := ClockUnit.begun price (p.now + (p.clocks.get c).config.stridePeriod) (startState price ((p.clocks.get c).run.minPrice.getD 0)))
    ?_ fun hk => hk.begun _ _ (startState_cases _ _))
  simp only [enterState_clocks, ha, startStride, Part.updClock_clocks, Part.updLot_clocks, PerClock.upd_upd]
  exact PerClock.upd_congr _ _ _ _ rfl

theorem startByConsole_clocksOk {l : LinkId} {m : Message} (h : p.With c ClockUnit.Calm) : (startByConsole l m c p).ClocksOk := by
  simp only [startByConsole]
  exact startRun_clocksOk h fun b q => Part.reply_clocks q l m b

theorem takeStart_clocksOk {l : LinkId} {m : Message} (h : p.ClocksOk) : (takeStart l m c p).ClocksOk := by
  have hrefused : ∀ e, (p.refuseMsg l m e).ClocksOk := fun e => h.of_clocks rfl
  unfold takeStart
  split
  · exact hrefused _
  · split
    · exact hrefused _
    · next hs =>
      split
      · exact startByConsole_clocksOk ((h.with c).imp fun hk => (hk.standsIn hs).calm rfl)
      · exact hrefused _
    · next hs => exact startByConsole_clocksOk ((h.with c).imp fun hk => (hk.standsIn hs).calm rfl)
    all_goals exact hrefused _

theorem restartStep_clocksOk (h : p.ClocksOk) : (restartStep c p).ClocksOk := by
  unfold restartStep
  split
  · exact h
  · split
    · next t _ hs =>
      exact startRun_clocksOk (p := p.reach t) ((h.with c).imp fun hk => (hk.standsIn hs).calm rfl) fun b q => Part.toConsole_clocks q c b
    · exact h

/-! ### Strides (R32, R33) -/

theorem strideGoesOn_clocksOk (h : p.With c (fun k => ∃ st, k.StandsIn st ∧ st.descends = true)) : (strideGoesOn c p).ClocksOk := by
  refine offerPosition_clocksOk (h.change (f := fun k => { k with strideTimer := some (p.now + k.config.stridePeriod) }) rfl ?_)
  rintro ⟨st, hk, hst⟩
  have hbids : st.bids = true := by revert hst; cases st <;> decide
  refine ClockUnit.StandsIn.bidding (st := st) ⟨⟨?_, ?_⟩, hk.2⟩ hbids
  · exact hk.2 ▸ { hk.fits with stride := by rw [hst]; rfl }
  · exact { hk.1.decides with }

/-- A run goes one position down in the state it is in. -/
theorem ClockUnit.StandsIn.strode (h : k.StandsIn st) (hst : st.descends = true) (pos price dwell : Nat) :
    ({ k with run := { k.run with position := pos, price := price, dwell := dwell } } : ClockUnit).StandsIn st := by
  have hrests : st.rests = false := by revert hst; cases st <;> decide
  have hf : ({ k with run := { k.run with position := pos, price := price, dwell := dwell } } : ClockUnit).Fits st :=
    { h.fits with rest := fun hr => by rw [hrests] at hr; cases hr }
  have hd : ({ k with run := { k.run with position := pos, price := price, dwell := dwell } } : ClockUnit).Decides st :=
    { h.1.decidesAt h.2 with }
  obtain ⟨-, rfl⟩ := h
  exact ⟨⟨hf, hd⟩, rfl⟩

/-- R32: a run comes to the floor. -/
theorem enterFloor_with (h : p.With c (ClockUnit.StandsIn .running)) : (enterState c .floor p).With c (ClockUnit.StandsIn .floor) := by
  refine Part.With.enter (h.imp fun hk => (hk.calm rfl).poised rfl ?_ ?_ nofun) rfl
  · exact hk.fits.stride
  · exact hk.fits.restart

theorem strideStep_clocksOk (h : p.ClocksOk) : (strideStep c p).ClocksOk := by
  unfold strideStep
  split
  · exact h
  · split
    · next t _ _ hs =>
      have h : (p.reach t).With c (ClockUnit.StandsIn .running) := (h.with c).imp fun hk => hk.standsIn hs
      simp only [strideRunning]
      split
      · exact lotDone_clocksOk (h.imp fun hk => hk.free rfl) _
      · refine strideGoesOn_clocksOk ?_
        split
        · exact (enterFloor_with (h.updRun fun hk => hk.strode rfl _ _ _)).imp fun hk => ⟨_, hk, rfl⟩
        · exact h.updRun fun hk => ⟨_, hk.strode rfl _ _ _, rfl⟩
    · next t _ _ hs =>
      have h : (p.reach t).With c (ClockUnit.StandsIn .floor) := (h.with c).imp fun hk => hk.standsIn hs
      simp only [strideFloor]
      split
      · exact lotDone_clocksOk (h.imp fun hk => hk.free rfl) _
      · exact strideGoesOn_clocksOk (h.updRun fun hk => ⟨_, hk.strode rfl _ _ _, rfl⟩)
    · exact h

/-! ### Hold and resume (R37, R38, R40) -/

/-- What is pending is no part of the other fields: another hold in WINDOW and AWARDING. -/
theorem ClockUnit.Ok.pending (h : k.Ok) (hs : k.state.pends = true) {r : RunRecord}
    (hr : r = { k.run with pendingHold := r.pendingHold, holdCause := r.holdCause, pendingWithdrawal := r.pendingWithdrawal })
    (hc : r.holdCause.isSome = r.pendingHold) (hw : r.pendingWithdrawal = true → k.state.awards = true) :
    ({ k with run := r } : ClockUnit).Ok := by
  obtain ⟨⟨hf, hd⟩, hz⟩ := ClockUnit.ok_iff.mp h
  have hheld : k.state.isHeld = false := by revert hs; cases k.state <;> decide
  rw [hr]
  exact ClockUnit.ok_iff.mpr ⟨⟨{ hf with hold := fun _ => hs, withdrawal := hw, cause := by rw [hheld]; exact hc }, { hd with }⟩, hz⟩

theorem ClockUnit.Ok.cause_pending (h : k.Ok) (hs : k.state.pends = true) : k.run.holdCause.isSome = k.run.pendingHold := by
  have hheld : k.state.isHeld = false := by revert hs; cases k.state <;> decide
  simpa [hheld] using h.soon.fits.cause

theorem holdLater_clocksOk {e : HoldCause} (h : p.ClocksOk) (hs : (p.clocks.get c).state.pends = true) :
    (holdLater c e p).ClocksOk := by
  refine Part.With.clocksOk ((h.with c).updRun fun hk => ?_)
  split
  · exact hk
  · exact hk.pending hs rfl rfl hk.soon.fits.withdrawal

theorem takeHold_clocksOk {l : LinkId} {m : Message} (h : p.ClocksOk) : (takeHold l m c p).ClocksOk := by
  have hnow : ∀ st b back, (p.clocks.get c).state = st → st.calm = true → (holdNow c back .console (p.reply l m b)).ClocksOk :=
    fun st b back hs hst => holdNow_clocksOk (p := p.reply l m b) ((h.with c).imp fun hk => (hk.standsIn hs).calm hst)
  have hlater : ∀ b, (p.clocks.get c).state.pends = true → (holdLater c .console (p.reply l m b)).ClocksOk :=
    fun b hs => holdLater_clocksOk (p := p.reply l m b) (h.of_clocks rfl) hs
  unfold takeHold
  split
  · next hs => exact hnow _ _ _ hs rfl
  · next hs => exact hnow _ _ _ hs rfl
  · next hs => exact hnow _ _ _ hs rfl
  · next hs => exact hlater _ (by rw [hs]; rfl)
  · next hs => exact hlater _ (by rw [hs]; rfl)
  all_goals exact h.of_clocks rfl

theorem consoleLost_clocksOk (h : p.ClocksOk) : (consoleLost c p).ClocksOk := by
  have hnow : ∀ st back, (p.clocks.get c).state = st → st.calm = true → (holdNow c back .consoleLost p).ClocksOk :=
    fun st back hs hst => holdNow_clocksOk ((h.with c).imp fun hk => (hk.standsIn hs).calm hst)
  unfold consoleLost
  split
  · next hs => exact hnow _ _ hs rfl
  · next hs => exact hnow _ _ hs rfl
  · next hs => exact hnow _ _ hs rfl
  · next hs => exact holdLater_clocksOk h (by rw [hs]; rfl)
  · next hs => exact holdLater_clocksOk h (by rw [hs]; rfl)
  · exact h

/-- R38: a clock that is held no longer. -/
theorem ClockUnit.StandsIn.released (h : k.StandsIn .held) :
    ({ k with run := { k.run with heldFrom := none, holdCause := none } } : ClockUnit).Calm ∧ k.strideTimer = none ∧
      k.restartTimer = none := by
  have hf := h.fits
  have hfree := h.free rfl
  have hp : k.run.pendingHold = false := Bool.eq_false_iff.mpr fun ht => by cases hf.hold ht
  have hw : k.run.pendingWithdrawal = false := Bool.eq_false_iff.mpr fun ht => by cases hf.withdrawal ht
  refine ⟨⟨hf.lot, hf.least, hf.run, rfl, hp, hw, rfl, ?_, hfree.candidates, hfree.inFlight, hf.orders⟩, ?_, ?_⟩
  · simpa [ClockState.isWindow] using hf.window
  · simpa [ClockState.descends] using hf.stride
  · simpa [ClockState.isRestart] using hf.restart

theorem resumeHeld_clocksOk (h : p.With c (ClockUnit.StandsIn .held)) : (resumeHeld c p).ClocksOk := by
  have hfree : (p.updRun c (fun r => { r with heldFrom := none, holdCause := none })).With c
      (fun k => k.Calm ∧ k.strideTimer = none ∧ k.restartTimer = none) := h.updRun fun hk => hk.released
  have hsome : (p.clocks.get c).run.heldFrom.isSome = true := h.1.fits.heldFrom
  simp only [resumeHeld]
  split
  · exact (enterDescending_with (hfree.imp fun hk => ⟨hk.1, hk.2.2⟩) (.inl rfl)).settle (by decide)
  · exact (enterDescending_with (hfree.imp fun hk => ⟨hk.1, hk.2.2⟩) (.inr rfl)).settle (by decide)
  · have hre := enterRestart_with (hfree.imp fun hk => ⟨hk.1, hk.2.1⟩)
    split
    · exact hre.settle (by decide)
    · exact enterReady_clocksOk (hre.imp fun hk => ⟨hk.calm rfl, by simpa [ClockState.descends] using hk.fits.stride⟩)
  · next hn => rw [hn] at hsome; cases hsome

theorem resumePending_clocksOk {l : LinkId} {m : Message} (h : p.ClocksOk) (hs : (p.clocks.get c).state.pends = true) :
    (resumePending l m c p).ClocksOk := by
  unfold resumePending
  split
  · have hset : (p.updRun c (fun r => { r with pendingHold := false, holdCause := none })).With c ClockUnit.Ok :=
      (h.with c).updRun fun hk => hk.pending hs rfl rfl hk.soon.fits.withdrawal
    exact hset.clocksOk.of_clocks rfl
  · exact h.of_clocks rfl

theorem takeResume_clocksOk {l : LinkId} {m : Message} (h : p.ClocksOk) : (takeResume l m c p).ClocksOk := by
  unfold takeResume
  split
  · next hs => exact resumeHeld_clocksOk (p := p.reply l m (.ack .plain)) ((h.with c).imp fun hk => hk.standsIn hs)
  · next hs => exact resumePending_clocksOk h (by rw [hs]; rfl)
  · next hs => exact resumePending_clocksOk h (by rw [hs]; rfl)
  all_goals exact h.of_clocks rfl

/-! ### Withdrawal by the console (R39, R62) -/

/-- Outside WINDOW and AWARDING a Clock Unit has no candidate and no reservation in flight. -/
theorem ClockUnit.Ok.free (h : k.Ok) (hs : k.state.pends = false) : k.Free := (h.standsIn rfl).free hs

theorem abandonWindow_with (h : p.With c (ClockUnit.StandsIn .window)) : (abandonWindow c p).With c ClockUnit.Free := by
  simp only [abandonWindow]
  have hopen : (p.updClock c (fun k => { k with windowTimer := none })).With c
      (fun k => k.run.run ≤ Config.maxCount16 ∧ OrdersFit k.orders k.nextOrder) :=
    h.updClock fun hk => ⟨hk.fits.run, hk.fits.orders⟩
  refine (hopen.trim (refuseAll_trims .withdrawn _ _) ?_).updClock fun ⟨hr, ho⟩ => ⟨rfl, rfl, hr, ho⟩
  rintro k _ ⟨hr, ho⟩ ⟨vs, rfl, hv⟩
  exact ⟨hr, ho.of_keys hv⟩

theorem withdrawHead_clocksOk {l : LinkId} {m : Message} (h : p.ClocksOk) : (withdrawHead l m c p).ClocksOk := by
  unfold withdrawHead
  split
  · next hs =>
    refine Part.With.clocksOk (Part.With.updRun (p := p.reply l m _) (h.with c) fun hk => ?_)
    have hp : ((p.reply l m (.ack (.withdrawal true))).clocks.get c).state.pends = true := by
      rw [Part.reply_clocks, hs]; rfl
    exact hk.pending hp rfl (hk.cause_pending hp) fun _ => by rw [Part.reply_clocks, hs]; rfl
  · next hs =>
    exact lotDone_clocksOk (abandonWindow_with (p := p.reply l m _) ((h.with c).imp fun hk => hk.standsIn hs)) _
  · next ha hw =>
    refine lotDone_clocksOk (p := p.reply l m _) ((h.with c).imp fun hk => hk.free ?_) _
    cases hs : (p.clocks.get c).state with
    | awarding => exact absurd hs ha
    | window => exact absurd hs hw
    | _ => rfl

theorem takeWithdraw_clocksOk {l : LinkId} {m : Message} (h : p.ClocksOk) : (takeWithdraw l m c p).ClocksOk := by
  simp only [takeWithdraw]
  split
  · exact h.of_clocks rfl
  · split
    · exact h.of_clocks rfl
    · split
      · exact withdrawHead_clocksOk h
      · exact h.of_clocks rfl

/-! ### The head lot, the configuration and hall notices (R24, R28, R42, R95) -/

/-- R28: an idle clock takes a head lot. -/
theorem ClockUnit.StandsIn.readied (h : k.StandsIn .idle) (lot least : Nat) :
    ({ k with state := .ready, run := k.run.ready lot least } : ClockUnit).StandsIn .ready :=
  ClockUnit.Poised.entered (k := { k with run := k.run.ready lot least }) (st := .ready)
    ⟨{ h.fits with lot := rfl, least := rfl, rest := fun _ => ⟨rfl, rfl, .inl rfl⟩ }, (h.poised rfl).2⟩ rfl

theorem takeHeadLot_clocksOk {lot : Nat} (h : p.ClocksOk) : (takeHeadLot c lot p).ClocksOk := by
  simp only [takeHeadLot]
  split
  · next hs =>
    refine Part.ClocksOk.trim ?_ (endAll_trims _ _ _)
    refine Part.With.settle (st := .ready) ((h.with c).change
      (f := fun k => { k with state := .ready, run := k.run.ready lot ((p.lot lot).getD Lot.absent).minPrice }) (by simp)
      fun hk => (hk.standsIn hs).readied _ _) (by decide)
  · exact h

theorem takeLotWithdrawn_clocksOk {lot n : Nat} (h : p.ClocksOk) : (takeLotWithdrawn c lot n p).ClocksOk := by
  unfold takeLotWithdrawn
  split
  · exact h.of_clocks (Part.toConsole_clocks _ _ _)
  · exact h

/-- The configuration counts in WINDOW alone. -/
theorem ClockUnit.Ok.reconfigured (h : k.Ok) (hs : k.state ≠ .window) (v : ClockConfig) : ({ k with config := v } : ClockUnit).Ok := by
  obtain ⟨hf, hd⟩ := h.soon
  exact ClockUnit.OkSoon.ok (k := { k with config := v }) ⟨{ hf with }, { hd with }⟩ hs

theorem takeConfigure_clocksOk {l : LinkId} {m : Message} (h : p.ClocksOk) : (takeConfigure l m c p).ClocksOk := by
  simp only [takeConfigure]
  split
  · next hs =>
    have hw : (p.clocks.get c).state ≠ .window := by rintro hw; rw [hw] at hs; simp at hs
    have hset : ∀ v, (p.updClock c (fun k => { k with config := v })).ClocksOk := fun v =>
      Part.With.clocksOk ((h.with c).updClock fun hk => hk.reconfigured hw v)
    split
    · exact (hset _).of_clocks rfl
    · exact (hset _).of_clocks rfl
  · exact h.of_clocks rfl

theorem setHallView_clocksOk {v : HallState} (h : p.ClocksOk) : (setHallView c v p).ClocksOk := by
  refine Part.With.clocksOk ((h.with c).updRun fun hk => ?_)
  obtain ⟨⟨hf, hd⟩, hz⟩ := ClockUnit.ok_iff.mp hk
  exact ClockUnit.ok_iff.mpr ⟨⟨{ hf with }, { hd with }⟩, hz⟩

theorem noticeOpen_clocksOk (h : p.ClocksOk) : (noticeOpen c p).ClocksOk := (setHallView_clocksOk h).of_clocks rfl

theorem noticeClosing_clocksOk (h : p.ClocksOk) : (noticeClosing c p).ClocksOk := by
  simp only [noticeClosing]
  have hview := setHallView_clocksOk (c := c) (v := .closing) h
  refine Part.ClocksOk.of_clocks (p := if _ then _ else _) ?_ rfl
  split
  · next hs =>
    exact enterReady_clocksOk ((hview.with c).imp fun hk =>
      ⟨(hk.standsIn hs).calm rfl, by simpa [ClockState.descends] using (hk.standsIn hs).fits.stride⟩)
  · exact hview

theorem noticeClosed_clocksOk (h : p.ClocksOk) : (noticeClosed c p).ClocksOk :=
  ((setHallView_clocksOk h).trim (endAll_trims _ _ _)).of_clocks rfl

/-! ### Standing orders (R84, R86, R87, R94, R95) -/

/-- A buyer with no order in the table. -/
theorem ClockUnit.orderOf_none {buyer : Nat} (h : k.orderOf buyer = none) : ∀ o ∈ k.orders, o.buyer ≠ buyer := by
  simpa [ClockUnit.orderOf] using h

/-- R86: a Clock Unit takes an order of a buyer who has none. -/
theorem ClockUnit.Ok.appended (h : k.Ok) {v : PlacementHandover} (hroom : k.orders.length < Config.maxOrders)
    (hb : ∀ o ∈ k.orders, o.buyer ≠ v.buyer) :
    ({ k with orders := k.orders ++ [v.order k.takeNumber], nextOrder := next16 k.takeNumber } : ClockUnit).Ok := by
  obtain ⟨⟨hf, hd⟩, hz⟩ := ClockUnit.ok_iff.mp h
  have hrange : 1 ≤ k.nextOrder ∧ k.nextOrder ≤ Config.maxCount16 := ⟨hf.orders.nextPos, hf.orders.nextMax⟩
  have hfree := k.takeNumber_free hf.orders.room hf.list.room hrange
  have hn : ∀ o ∈ k.orders, o.number ≠ k.takeNumber := fun o ho heq => by
    rw [ClockUnit.numberHeld_iff.mpr (List.mem_append_left _ (List.mem_map.mpr ⟨o, ho, heq⟩))] at hfree
    cases hfree
  have ho := hf.orders.append (y := v.order k.takeNumber) hroom hb hn (ClockUnit.freeNumber_range hrange _)
  exact ClockUnit.ok_iff.mpr ⟨⟨{ hf with orders := ho }, { hd with }⟩, hz⟩

theorem appendOrder_clocksOk {v : PlacementHandover} {n : Option Nat} (h : p.ClocksOk)
    (hroom : (p.clocks.get c).orders.length < Config.maxOrders) (hb : ∀ o ∈ (p.clocks.get c).orders, o.buyer ≠ v.buyer) :
    (appendOrder c v n p).ClocksOk := by
  refine Part.With.clocksOk ((h.with c).change (f := fun k =>
    { k with orders := k.orders ++ [v.order (p.clocks.get c).takeNumber], nextOrder := next16 (p.clocks.get c).takeNumber }) ?_
    fun hk => hk.appended hroom hb)
  rfl

/-- R86: the order replaced makes room for the one placed. -/
theorem takePlacement_clocksOk {v : PlacementHandover} (h : p.ClocksOk) : (takePlacement c v p).ClocksOk := by
  unfold takePlacement
  split
  · next o ho =>
    have hm : o ∈ (p.clocks.get c).orders := List.mem_of_find?_eq_some ho
    have hb : o.buyer = v.buyer := by simpa using List.find?_some ho
    have horders : ((endOrder c o .replaced o.target none p).clocks.get c).orders =
        (p.clocks.get c).orders.filter (fun x => decide (x.number ≠ o.number)) := by simp [endOrder]
    have hfit := (h c).soon.fits.orders
    refine appendOrder_clocksOk (h.trim (endOrder_trims _ _ _ _ p)) ?_ fun y hy hyb => ?_
    · rw [horders]
      exact lt_of_lt_of_le (List.length_filter_lt_length_iff_exists.mpr ⟨o, hm, by simp⟩) hfit.room
    · rw [horders, List.mem_filter] at hy
      have := List.inj_on_of_nodup_map hfit.buyers hy.1 hm (hyb.trans hb.symm)
      simp [this] at hy
  · next ho =>
    split
    · next hroom => exact appendOrder_clocksOk h hroom (ClockUnit.orderOf_none ho)
    · exact h.of_clocks rfl

theorem takeCancel_clocksOk {buyer : Nat} {t : DeskTarget} {tag : Option Nat} (h : p.ClocksOk) : (takeCancel c buyer t tag p).ClocksOk := by
  unfold takeCancel
  split
  · exact h.trim (endOrder_trims _ _ _ _ p)
  · exact h.of_clocks rfl

theorem takeEndRequest_clocksOk {buyer : Nat} {t : Option DeskTarget} (h : p.ClocksOk) : (takeEndRequest c buyer t p).ClocksOk := by
  unfold takeEndRequest
  split
  · exact h.trim (endOrder_trims _ _ _ _ p)
  · exact h

theorem takeNotice_clocksOk {v : NoticeHandover} (h : p.ClocksOk) : (takeNotice c v p).ClocksOk := by
  unfold takeNotice
  split
  · exact h
  · split
    · exact h.trim (endOrder_trims _ _ _ _ p)
    · exact h.trim (.of_map (fun o => by split <;> rfl) rfl)

end

end Sys2Proof.Machine
end

section
/-! The commands of a clock keep the Supply Unit in agreement, when the clock is as it should be (R15, R28, R29, R39, R62). -/

namespace Sys2Proof.Machine

/-! ### Agreement of all that a sale reads and writes -/

/-- Each Clock Unit is as it should be, and the Supply Unit agrees with itself and with what the clocks have in hand. -/
structure Part.Agrees (p : Part) : Prop where
  clocks : p.ClocksOk
  sound : p.Sound 0

/-- The same, with the tables in the form in which they can be read. -/
structure Part.SaleOk (p : Part) : Prop where
  clocks : p.ClocksOk
  tables : p.supply.TablesOk
  sound : p.Sound 0

section
variable {p q : Part} {c : ClockId} {k : ClockUnit}

theorem Part.SaleOk.agrees (h : p.SaleOk) : p.Agrees := ⟨h.clocks, h.sound⟩

theorem Part.Agrees.of_market (h : p.Agrees) (hm : q.market = p.market) : q.Agrees :=
  ⟨h.clocks.of_clocks (Part.market_eq_iff.mp hm).2.1, h.sound.of_market hm⟩

theorem Part.SaleOk.of_market (h : p.SaleOk) (hm : q.market = p.market) : q.SaleOk :=
  ⟨(h.agrees.of_market hm).clocks, (Part.market_eq_iff.mp hm).1 ▸ h.tables, (h.agrees.of_market hm).sound⟩

/-- A clock that is not idle has a lot in its run record. -/
theorem Part.SaleOk.selling (h : p.SaleOk) (hs : (p.clocks.get c).state ≠ .idle) : p.Selling c := by
  refine ⟨h.sound, h.tables, Option.isSome_iff_exists.mp ?_⟩
  rw [(h.clocks c).soon.fits.lot]
  cases hst : (p.clocks.get c).state with
  | idle => exact absurd hst hs
  | _ => rfl

theorem Part.SaleOk.selling_of (h : p.SaleOk) {st : ClockState} (hs : (p.clocks.get c).state = st) (hi : st ≠ .idle) : p.Selling c :=
  h.selling (hs ▸ hi)

/-- What a clock does that changes no more than its own records, as they should be. -/
theorem Part.SaleOk.agrees_of_sale (h : p.SaleOk) (hc : q.ClocksOk) (hs : q.sale = p.sale) : q.Agrees := ⟨hc, h.sound.of_sale hs⟩

/-! ### The decision, bids and runs -/

/-- A reservation is in flight on a lot. -/
theorem Part.SaleOk.selling_of_inFlight (h : p.SaleOk) {price : Nat} (hi : (p.clocks.get c).inFlight = some price) : p.Selling c :=
  h.selling_of ((h.clocks c).awarding_of_inFlight hi) (by decide)

theorem takeRefuse_agrees {e : Cause} (h : p.SaleOk) : (takeRefuse c e p).Agrees :=
  ⟨takeRefuse_clocksOk h.clocks, takeRefuse_sound (fun _ hi => h.selling_of_inFlight hi) h.sound⟩

theorem takeGrant_agrees {line : Nat} (h : p.SaleOk) : (takeGrant c line p).Agrees :=
  ⟨takeGrant_clocksOk h.clocks, takeGrant_sound (fun _ hi => h.selling_of_inFlight hi) h.sound⟩

theorem windowStep_agrees (h : p.SaleOk) : (windowStep c p).Agrees :=
  ⟨windowStep_clocksOk h.clocks, windowStep_sound (fun hs => h.selling_of hs (by decide)) h.sound⟩

theorem strideStep_agrees (h : p.SaleOk) : (strideStep c p).Agrees := by
  refine ⟨strideStep_clocksOk h.clocks, strideStep_sound (fun hs => ?_) h.sound⟩
  rcases hs with hs | hs
  · exact h.selling_of hs (by decide)
  · exact h.selling_of hs (by decide)

theorem restartStep_agrees (h : p.SaleOk) : (restartStep c p).Agrees :=
  ⟨restartStep_clocksOk h.clocks, restartStep_sound (fun hs => h.selling_of hs (by decide)) h.sound⟩

theorem takeAdmittedBid_agrees {b : BidHandover} (h : p.SaleOk) : (takeAdmittedBid c b p).Agrees := by
  refine ⟨takeAdmittedBid_clocksOk h.clocks, ?_⟩
  have hrefused : ∀ e, (refuseAdmitted c b e p).Sound 0 := fun e => h.sound.of_sale (by simp)
  unfold takeAdmittedBid
  split
  · exact hrefused _
  · split
    · next hs => exact admitBid_sound (h.selling_of hs (by decide))
    · next hs => exact admitBid_sound (h.selling_of hs (by decide))
    · next hs => exact admitBid_sound (h.selling_of hs (by decide))
    all_goals exact hrefused _

theorem takeStart_agrees {l : LinkId} {m : Message} (h : p.SaleOk) : (takeStart l m c p).Agrees := by
  refine ⟨takeStart_clocksOk h.clocks, ?_⟩
  have hrefused : ∀ e, (p.refuseMsg l m e).Sound 0 := fun e => h.sound.of_sale (by simp)
  have hstart : p.Selling c → (startByConsole l m c p).Sound 0 := fun hc => by
    simp only [startByConsole]
    exact startRun_sound hc fun b q => Part.reply_sale q l m b
  unfold takeStart
  split
  · exact hrefused _
  · split
    · exact hrefused _
    · next hs =>
      split
      · exact hstart (h.selling_of hs (by decide))
      · exact hrefused _
    · next hs => exact hstart (h.selling_of hs (by decide))
    all_goals exact hrefused _

/-! ### Withdrawal by the console (R39, R62) -/

theorem abandonWindow_selling (h : p.Selling c) : (abandonWindow c p).Selling c := by
  simp only [abandonWindow]
  exact ClockUnit.endDecision_selling (h.of_sale (by simp))

theorem withdrawHead_sound {l : LinkId} {m : Message} (h : p.Selling c) : (withdrawHead l m c p).Sound 0 := by
  unfold withdrawHead
  split
  · exact h.sound.of_sale (by simp)
  · exact lotDone_sound (abandonWindow_selling (h.of_sale (by simp))) _
  · exact lotDone_sound (h.of_sale (by simp)) _

theorem takeWithdraw_agrees {l : LinkId} {m : Message} (h : p.SaleOk) : (takeWithdraw l m c p).Agrees := by
  refine ⟨takeWithdraw_clocksOk h.clocks, ?_⟩
  simp only [takeWithdraw]
  split
  · exact h.sound.of_sale (by simp)
  · split
    · exact h.sound.of_sale (by simp)
    · next hs =>
      split
      · exact withdrawHead_sound (h.selling hs)
      · exact h.sound.of_sale (by simp)

/-! ### The Supply Unit's reports (R28, R29) -/

/-- A report of the Supply Unit that tells of no head lot leaves the clock's hand as it is. -/
theorem Part.SaleOk.untold {m : ToClockFromSupply} {ms : List ToClockFromSupply} (h : p.SaleOk)
    (hm : (p.channels.get c).supplyToClock = m :: ms) (hn : ∀ i, m ≠ .headLotPresented i) :
    (p.updChannels c (fun v => { v with supplyToClock := ms })).SaleOk := by
  refine ⟨h.clocks, h.tables, h.sound.of_supply rfl fun d => ?_⟩
  by_cases hd : d = c
  · subst hd
    have htold : (p.channels.get d).headsTold = Channels.headsTold { p.channels.get d with supplyToClock := ms } := by
      rw [Channels.headsTold, hm]
      cases m with
      | headLotPresented i => exact absurd rfl (hn i)
      | _ => rfl
    simp [htold]
  · simp [PerClock.get_upd_ne _ _ hd]

/-- A clock that is told of a head lot has nothing else in hand. -/
theorem Part.HandSound.only_told (h : p.HandSound c) {i : Nat} {rest : List Nat} (ht : (p.channels.get c).headsTold = i :: rest) :
    rest = [] ∧ (p.clocks.get c).run.lot = none ∧ (p.channels.get c).clockToSupply = [] := by
  have := h.one
  rw [Part.inHand, ht, List.length_cons] at this
  refine ⟨List.length_eq_zero_iff.mp (by omega), ?_, List.length_eq_zero_iff.mp (by omega)⟩
  exact Option.toList_eq_nil_iff.mp (List.length_eq_zero_iff.mp (by omega))

/-- R28: the head lot a clock is told of comes into its run record. -/
theorem Part.Sound.readied {i : Nat} {ms : List ToClockFromSupply} (h : p.Sound 0)
    (hm : (p.channels.get c).supplyToClock = .headLotPresented i :: ms) (hx : (p.clocks.get c).candidates = [])
    (hsupply : q.supply = p.supply) (hchannel : q.channels.get c = { p.channels.get c with supplyToClock := ms })
    (hclock : (q.clocks.get c).run.lot = some i ∧ (q.clocks.get c).candidates = (p.clocks.get c).candidates)
    (hother : ∀ d, d ≠ c → q.channels.get d = p.channels.get d ∧ q.clocks.get d = p.clocks.get d) : q.Sound 0 := by
  have hold : (p.channels.get c).headsTold = i :: (q.channels.get c).headsTold := by
    rw [hchannel, Channels.headsTold, hm]; rfl
  obtain ⟨hnone, -, hreported⟩ := (h.hand c).only_told hold
  have hreports : (q.channels.get c).clockToSupply = [] := by rw [hchannel]; exact hreported
  refine ⟨hsupply ▸ h.supply, fun d => (h.queue d).of_reads hsupply ?_, fun d => ?_⟩
  · by_cases hd : d = c
    · rw [hd, hreports, hreported]
    · rw [(hother d hd).1]
  · by_cases hd : d = c
    · subst hd
      refine ⟨?_, fun {j} hj => ?_, fun {j} hj => ?_, fun {j} hj => ?_⟩
      · rw [Part.inHand, hnone, hreports, hclock.1]; exact le_rfl
      · rw [hnone] at hj; cases hj
      · rw [hclock.1] at hj
        cases hj
        obtain ⟨hh, x, hlot, hst⟩ := (h.hand d).told (i := i) (by rw [hold]; exact List.mem_cons_self)
        rw [hsupply, Part.lot, hsupply]
        exact ⟨hh, x, hlot, .inl hst, fun y hy => by rw [hclock.2, hx] at hy; cases hy⟩
      · rw [hreports] at hj; cases hj
    · obtain ⟨hch, hcl⟩ := hother d hd
      exact (h.hand d).of_handSame h.supply (h.queue d)
        (Part.SameAt.hand (.of_supply hsupply (by rw [hch]) (by rw [hch]) (by rw [hcl]) (by rw [hcl]; exact List.Subset.refl _)))

theorem takeHeadLot_agrees {i : Nat} {ms : List ToClockFromSupply} (h : p.SaleOk)
    (hm : (p.channels.get c).supplyToClock = .headLotPresented i :: ms) :
    (takeHeadLot c i (p.updChannels c (fun v => { v with supplyToClock := ms }))).Agrees := by
  refine ⟨takeHeadLot_clocksOk (h.clocks.of_clocks rfl), ?_⟩
  have hidle : (p.clocks.get c).state = .idle := by
    by_contra hs
    obtain ⟨j, hj⟩ := (h.selling hs).lot
    have hold : (p.channels.get c).headsTold = i :: Channels.headsTold { p.channels.get c with supplyToClock := ms } := by
      rw [Channels.headsTold, hm]; rfl
    rw [((h.sound.hand c).only_told hold).2.1] at hj
    cases hj
  have hx : (p.clocks.get c).candidates = [] := (h.clocks c).soon.fits.noList (by rw [hidle]; rfl)
  simp only [takeHeadLot, Part.updChannels_clocks, hidle, if_true]
  refine Part.Sound.of_sale (p := (p.updChannels c (fun v => { v with supplyToClock := ms })).updRun c
    (fun r => r.ready i ((p.lot i).getD Lot.absent).minPrice)) ?_ ?_
  · refine h.sound.readied hm hx rfl (by simp) (by simp [RunRecord.ready]) fun d hd => ?_
    simp [PerClock.get_upd_ne _ _ hd]
  · rw [changeOfProduct_sale, enterState_sale]; rfl

/-! ### The loss of a link, and reset -/

theorem consoleLost_agrees (h : p.SaleOk) : (consoleLost c p).Agrees :=
  h.agrees_of_sale (consoleLost_clocksOk h.clocks) (consoleLost_sale c p)

/-- What the Supply Unit does keeps the agreement when it keeps that of its own records. -/
theorem Part.SaleOk.agrees_of_supply (h : p.SaleOk) (hs : q.Sound 0) (hq : q.clocks = p.clocks ∧ q.account = p.account) : q.Agrees :=
  ⟨h.clocks.of_clocks hq.1, hs⟩

theorem lossStep_agrees {l : LinkId} (h : p.SaleOk) : (lossStep l p).Agrees := by
  unfold lossStep
  split
  · exact h.agrees
  · simp only [loseLink]
    split
    · exact h.agrees.of_market rfl
    · next r _ =>
      generalize hq : Part.updLink _ l Link.lost = q
      have h : q.SaleOk := hq ▸ h.of_market rfl
      cases r with
      | logistics => exact h.agrees_of_supply (logisticsLost_sound h.sound h.tables) (logisticsLost_steady q)
      | console c => exact consoleLost_agrees h
      | deskGroup => exact h.agrees.of_market (deskGroupLost_market l q)
      | settlement => exact h.agrees.of_market (settlementLost_market q)
      | display => exact h.agrees.of_market (displayLost_outside l q).1
      | supervision => exact h.agrees.of_market (supervisionLost_outside q).1

theorem ClockUnit.reset_ok : ClockUnit.reset.Ok :=
  ClockUnit.OkSoon.ok ⟨⟨rfl, rfl, fun _ => ⟨rfl, rfl, .inl rfl⟩, Nat.zero_le _, rfl, nofun, nofun, rfl, rfl, rfl, rfl, .nil _,
    fun _ => rfl, ⟨Nat.zero_le _, .nil, .nil, nofun, le_rfl, by decide⟩⟩, ⟨rfl, nofun⟩⟩ nofun

/-- After reset the tables and the queues are empty, and nothing is on its way. -/
theorem Part.reset_agrees : Part.reset.Agrees := by
  have hclock : ∀ c, Part.reset.clocks.get c = ClockUnit.reset := PerClock.get_const _
  have hchannel : ∀ c, Part.reset.channels.get c = Channels.reset := PerClock.get_const _
  have hqueue : ∀ c, Part.reset.supply.queues.get c = [] := PerClock.get_const _
  have hslot : ∀ c, Part.reset.supply.slots.get c = none := PerClock.get_const _
  refine ⟨fun c => (hclock c).symm ▸ ClockUnit.reset_ok, ?_, fun c => ?_, fun c => ?_⟩
  · exact ⟨nofun, nofun, nofun, nofun, nofun, nofun, nofun, fun {c n} hn => (by rw [hslot] at hn; cases hn), nofun⟩
  · refine ⟨?_, ?_, ?_, ?_⟩
    · rw [hqueue]; exact List.nodup_nil
    · rw [hqueue]; exact Nat.zero_le _
    · intro i hi; rw [hqueue] at hi; cases hi
    · intro i x hx; cases hx
  · refine ⟨?_, ?_, ?_, ?_⟩
    · rw [Part.inHand, hclock, hchannel]; decide
    · intro i hi; rw [hchannel] at hi; cases hi
    · intro i hi; rw [hclock] at hi; cases hi
    · intro i hi; rw [hchannel] at hi; cases hi

end

end Sys2Proof.Machine
end

section
/-! O6: every step keeps the Supply Unit in agreement, together with the tables and the clocks (R1 to R29, R48). -/

namespace Sys2Proof.Machine

section
variable {p q : Part}

/-! ### What is taken from a link or a hand-over leaves the sale as it was -/

theorem Part.SaleOk.message {l : LinkId} {k : Kind} {f : Message → Part → Part} (h : p.SaleOk)
    (hf : ∀ m q, q.SaleOk → (f m q).Agrees) : (takeMessage l k f p).Agrees :=
  takeMessage_leads (fun _ hq => hq.agrees) (fun _ _ hq => hq.of_market rfl) hf h

theorem Part.SaleOk.formed {l : LinkId} {k : Kind} {f : Message → Part → Part} (h : p.SaleOk)
    (hf : ∀ m q, q.SaleOk → (f m q).Agrees) : (takeMessage l k (ifWellFormed l k f) p).Agrees :=
  takeFormed_leads (fun _ hq => hq.agrees) (fun _ _ hq => hq.of_market rfl) hf h

theorem Part.SaleOk.console {l : LinkId} {k : Kind} {f : Message → ClockId → Part → Part} (h : p.SaleOk)
    (hf : ∀ m c q, q.SaleOk → (f m c q).Agrees) : (takeMessage l k (ifWellFormed l k (fun m => onConsole l (f m))) p).Agrees :=
  h.formed fun m _ hq => onConsole_leads (fun _ hq => hq.agrees) (hf m) hq

theorem Part.SaleOk.fromAccount {c : ClockId} {f : ToClock → Option (Part → Part)} (h : p.SaleOk)
    (hf : ∀ m g, f m = some g → ∀ q, q.SaleOk → (g q).Agrees) : (takeFromAccount c f p).Agrees :=
  takeFromAccount_leads (fun _ hq => hq.agrees) (fun _ _ hq => hq.of_market (Part.updChannels_market (fun _ => rfl) fun _ => rfl)) hf h

theorem Part.SaleOk.fromClock {c : ClockId} {f : ToAccount → Option (Part → Part)} (h : p.SaleOk)
    (hf : ∀ m g, f m = some g → ∀ q, (g q).market = q.market) : (takeFromClock c f p).Agrees :=
  takeFromClock_leads (fun _ hq => hq.agrees) (fun _ _ hq => hq.of_market (Part.updChannels_market (fun _ => rfl) fun _ => rfl))
    (fun m g hg q hq => hq.agrees.of_market (hf m g hg q)) h

theorem Part.SaleOk.clockEvent {c : ClockId} {f : ClockEvent → Option (Part → Part)} (h : p.SaleOk)
    (hf : ∀ m g, f m = some g → ∀ q, (g q).market = q.market) : (takeClockEvent c f p).Agrees :=
  takeClockEvent_leads (fun _ hq => hq.agrees) (fun _ _ hq => hq.of_market (Part.updChannels_market (fun _ => rfl) fun _ => rfl))
    (fun m g hg q hq => hq.agrees.of_market (hf m g hg q)) h

theorem Part.SaleOk.ofReport {src : ReportSource} {f : Report → Option (Part → Part)} (h : p.SaleOk)
    (hf : ∀ m g, f m = some g → ∀ q, (g q).market = q.market) : (takeReport src f p).Agrees :=
  takeReport_leads (fun _ hq => hq.agrees) (fun _ _ hq => hq.of_market rfl)
    (fun _ _ _ hq => hq.of_market (Part.updChannels_market (fun _ => rfl) fun _ => rfl)) (fun m g hg q hq => hq.agrees.of_market (hf m g hg q)) h

/-! ### Every command -/

theorem effect_agrees (i : Instr) (h : p.SaleOk) : (effect i p).Agrees := by
  have hm : ∀ {q : Part}, q.market = p.market → q.Agrees := h.agrees.of_market
  have hformed : ∀ {l k f}, (∀ m q, (f m q : Part).market = q.market) → (takeMessage l k (ifWellFormed l k f) p).Agrees :=
    fun hf => h.formed fun m q hq => hq.agrees.of_market (hf m q)
  cases i with
  | reset | resetPinHeldLow => exact Part.reset_agrees
  | lineActivity l => exact hm (lineActive_outside l p).1
  | frameReceived l bytes => exact hm (receive_market l bytes p)
  | keepMarker l => simp only [effect]; split; exacts [hm (keepFrom_outside l p).1, h.agrees]
  | waitMarker l => simp only [effect]; split; exacts [hm (waitFrom_outside l p).1, h.agrees]
  | goMarker l => simp only [effect]; split; exacts [hm (goFrom_market l p), h.agrees]
  | lossTimerExpiry l => exact lossStep_agrees h
  | keepTimerExpiry l => exact hm (keepStep_outside l p).1
  | frameSent l => exact hm (transmit_market l p)
  | unknownKind l => exact hm (unknownStep_outside l p).1
  | announce l => exact h.message fun m q hq => hq.agrees.of_market (takeAnnounce_market l m q)
  | trainHeader l =>
    exact h.formed fun m q hq => hq.agrees_of_supply (takeTrainHeader_sound hq.sound hq.tables) (takeTrainHeader_steady l m q)
  | trolleyEntry l =>
    exact h.formed fun m q hq => hq.agrees_of_supply (takeTrolleyEntry_sound hq.sound hq.tables) (takeTrolleyEntry_steady l m q)
  | trolleyArrived l =>
    exact h.formed fun m q hq => hq.agrees_of_supply (takeTrolleyArrived_sound hq.sound hq.tables) (takeTrolleyArrived_steady l m q)
  | lotWithdraw l =>
    exact h.formed fun m q hq => hq.agrees_of_supply (takeLotWithdraw_sound hq.sound hq.tables) (takeLotWithdraw_steady l m q)
  | trainWithdraw l =>
    exact h.formed fun m q hq => hq.agrees_of_supply (takeTrainWithdraw_sound hq.sound hq.tables) (takeTrainWithdraw_steady l m q)
  | trolleyDeparted l =>
    exact h.formed fun m q hq => hq.agrees_of_supply (takeTrolleyDeparted_sound hq.sound hq.tables) (takeTrolleyDeparted_steady l m q)
  | slotQuery l => exact hformed fun m q => (takeSlotQuery_outside l m q).1
  | lotDoneReport c => exact h.agrees_of_supply (lotDoneStep_sound h.sound h.tables) (lotDoneStep_steady c p)
  | headLotPresented c =>
    refine takeFromSupply_leads h.agrees fun m ms g hms hg => ?_
    cases m <;> cases hg
    exact takeHeadLot_agrees h hms
  | noPresentedHead c =>
    refine takeFromSupply_leads h.agrees fun m ms g hms hg => ?_
    cases m <;> cases hg
    exact (h.untold hms nofun).agrees
  | lotWithdrawn c =>
    refine takeFromSupply_leads h.agrees fun m ms g hms hg => ?_
    cases m <;> cases hg
    have hq := h.untold hms nofun
    exact hq.agrees_of_sale (takeLotWithdrawn_clocksOk hq.clocks) (takeLotWithdrawn_sale c _ _ _)
  | clockConfigure l =>
    exact h.console fun m c q hq => hq.agrees_of_sale (takeConfigure_clocksOk hq.clocks) (takeConfigure_sale l m c q)
  | start l => exact h.console fun m c q hq => takeStart_agrees hq
  | holdClock l => exact h.console fun m c q hq => hq.agrees_of_sale (takeHold_clocksOk hq.clocks) (takeHold_sale l m c q)
  | resume l => exact h.console fun m c q hq => hq.agrees_of_sale (takeResume_clocksOk hq.clocks) (takeResume_sale l m c q)
  | withdrawLot l => exact h.console fun m c q hq => takeWithdraw_agrees hq
  | strideEnd c => exact strideStep_agrees h
  | windowExpiry c => exact windowStep_agrees h
  | restartDelayEnd c => exact restartStep_agrees h
  | bid l => exact h.message fun m q hq => hq.agrees.of_market (takeBid_market l m q)
  | admittedBid c =>
    refine h.fromAccount fun m g hg q hq => ?_
    cases m <;> cases hg
    exact takeAdmittedBid_agrees hq
  | placement c =>
    refine h.fromAccount fun m g hg q hq => ?_
    cases m <;> cases hg
    exact hq.agrees_of_sale (takePlacement_clocksOk hq.clocks) (takePlacement_sale c _ q)
  | cancelOrder l => exact hformed fun m q => boundDesk_market (takeCancelOrder_market l m) q
  | cancelRequest c =>
    refine h.fromAccount fun m g hg q hq => ?_
    cases m <;> cases hg
    exact hq.agrees_of_sale (takeCancel_clocksOk hq.clocks) (takeCancel_sale c _ _ _ q)
  | buyerNotice c =>
    refine h.fromAccount fun m g hg q hq => ?_
    cases m <;> cases hg
    exact hq.agrees_of_sale (takeNotice_clocksOk hq.clocks) (takeNotice_sale c _ q)
  | endRequest c =>
    refine h.fromAccount fun m g hg q hq => ?_
    cases m <;> cases hg
    exact hq.agrees_of_sale (takeEndRequest_clocksOk hq.clocks) (takeEndRequest_sale c _ _ q)
  | hallNoticeOpen c =>
    refine h.fromAccount fun m g hg q hq => ?_
    rcases m with _ | _ | _ | _ | _ | ⟨_ | _ | _⟩ | _ | _ <;> cases hg
    exact hq.agrees_of_sale (noticeOpen_clocksOk hq.clocks) (noticeOpen_sale c q)
  | hallNoticeClosing c =>
    refine h.fromAccount fun m g hg q hq => ?_
    rcases m with _ | _ | _ | _ | _ | ⟨_ | _ | _⟩ | _ | _ <;> cases hg
    exact hq.agrees_of_sale (noticeClosing_clocksOk hq.clocks) (noticeClosing_sale c q)
  | hallNoticeClosed c =>
    refine h.fromAccount fun m g hg q hq => ?_
    rcases m with _ | _ | _ | _ | _ | ⟨_ | _ | _⟩ | _ | _ <;> cases hg
    exact hq.agrees_of_sale (noticeClosed_clocksOk hq.clocks) (noticeClosed_sale c q)
  | reservation c =>
    refine h.fromClock fun m g hg q => ?_
    cases m <;> cases hg
    exact takeReservation_market c _ q
  | grant c =>
    refine h.fromAccount fun m g hg q hq => ?_
    cases m <;> cases hg
    exact takeGrant_agrees hq
  | refuse c =>
    refine h.fromAccount fun m g hg q hq => ?_
    cases m <;> cases hg
    exact takeRefuse_agrees hq
  | deliverOutcome c =>
    refine h.fromClock fun m g hg q => ?_
    cases m <;> cases hg
    · exact (deliver_outside _ _ _ q).1
    · exact (deliverReply_outside _ _ _ q).1
  | orderEnded c =>
    refine h.fromClock fun m g hg q => ?_
    cases m <;> cases hg
    exact (sendOrderEnded_outside _ _ _ q).1
  | activityReport c =>
    refine h.fromClock fun m g hg q => ?_
    cases m <;> cases hg
    exact takeActivity_market c _ _ q
  | login l => exact h.message fun m q hq => hq.agrees.of_market (takeLogin_market l m q)
  | logout l => exact hformed fun m q => boundDesk_market (takeLogout_market l m) q
  | present l => exact hformed fun m q => boundDesk_market (takePresent_market l m) q
  | ageExpiry desk => exact hm (ageStep_market desk p)
  | snapshotRequest l => exact hformed fun m q => (takeSnapshot_outside l m q).1
  | buyerSet l => exact hformed (takeBuyerSet_market l)
  | buyerRemove l => exact hformed (takeBuyerRemove_market l)
  | creditLimit l => exact hformed (takeCreditLimit_market l)
  | block l => exact hformed (setBlocked_market l true)
  | unblock l => exact hformed (setBlocked_market l false)
  | tariffLoad l => exact hformed (takeTariffLoad_market l)
  | closeInvoice l => exact hformed (takeCloseInvoice_market l)
  | settled l => exact hformed (takeSettled_market l)
  | openDay l => exact hformed (takeOpenDay_market l)
  | closeDay l => exact hformed (takeCloseDay_market l)
  | statisticsRequest l => exact hformed fun m q => (takeStatistics_outside l m q).1
  | stateEvent c =>
    refine h.clockEvent fun m g hg q => ?_
    cases m <;> cases hg
    exact (takeStateEvent_outside c _ q).1
  | strideEvent c =>
    refine h.clockEvent fun m g hg q => ?_
    cases m <;> cases hg
    exact (takeStrideEvent_outside c _ q).1
  | awardEvent c =>
    refine h.clockEvent fun m g hg q => ?_
    cases m <;> cases hg
    exact (takeAwardEvent_outside c _ _ q).1
  | divisorEvent c =>
    refine h.clockEvent fun m g hg q => ?_
    cases m <;> cases hg
    exact (takeDivisorEvent_outside c _ _ q).1
  | supplyUnitEvent c => exact hm (supplyEventStep_outside c p).1
  | frameTimerExpiry c => exact hm (frameTimerStep_outside c p).1
  | bidCopy src =>
    refine h.ofReport fun m g hg q => ?_
    cases m <;> cases hg
    exact (copyBid_outside _ q).1
  | outcomeCopy src =>
    refine h.ofReport fun m g hg q => ?_
    cases m <;> cases hg
    exact (copyOutcome_outside _ q).1

/-- The agreement of the statement, as the lemmas above read it. -/
theorem Part.agreement_iff : (p.ClocksOk ∧ p.TablesOk ∧ p.SupplyOk) ↔ p.Agrees ∧ p.FormOk False := by
  rw [Part.tablesOk_iff_formOk]
  constructor
  · rintro ⟨hc, ht, hs⟩
    exact ⟨⟨hc, (Part.supplyOk_iff ht.1).mp hs⟩, ht⟩
  · rintro ⟨⟨hc, hs⟩, ht⟩
    exact ⟨hc, ht, (Part.supplyOk_iff ht.1).mpr hs⟩

end

/-- Settles O6: the tables are kept in form by every command; read in that form, the agreement of the Supply Unit with the Clock Units is
kept by every command too. -/
theorem supplyKept : Obligations.SupplyKept := by
  refine kept_of_effect (fun _ _ h => h) fun i p h => ?_
  obtain ⟨hagrees, hform⟩ := Part.agreement_iff.mp h
  exact Part.agreement_iff.mpr ⟨effect_agrees i ⟨hagrees.clocks, hform.1, hagrees.sound⟩, effect_formOk i hform⟩

end Sys2Proof.Machine
end

section
/-! O5: every step keeps each Clock Unit in agreement with itself (R25, R26, R49, R84). -/

namespace Sys2Proof.Machine

section
variable {p q : Part}

/-! ### What is taken from a link or a hand-over leaves the clocks as they were -/

theorem Part.ClocksOk.of_market (h : p.ClocksOk) (hm : q.market = p.market) : q.ClocksOk :=
  h.of_clocks (Part.market_eq_iff.mp hm).2.1

theorem Part.ClocksOk.message {l : LinkId} {k : Kind} {f : Message → Part → Part} (h : p.ClocksOk)
    (hf : ∀ m q, (f m q).market = q.market) : (takeMessage l k f p).ClocksOk :=
  takeMessage_leads (fun _ hq => hq) (fun _ _ hq => hq) (fun m q hq => hq.of_market (hf m q)) h

/-- The Supply Unit's messages leave the clocks alone, though not the market. -/
theorem Part.ClocksOk.logistics {l : LinkId} {k : Kind} {f : Message → Part → Part} (h : p.ClocksOk)
    (hf : ∀ m q, (f m q).clocks = q.clocks) : (takeMessage l k (ifWellFormed l k f) p).ClocksOk :=
  takeFormed_leads (fun _ hq => hq) (fun _ _ hq => hq) (fun m q hq => hq.of_clocks (hf m q)) h

theorem Part.ClocksOk.console {l : LinkId} {k : Kind} {f : Message → ClockId → Part → Part} (h : p.ClocksOk)
    (hf : ∀ m c q, q.ClocksOk → (f m c q).ClocksOk) :
    (takeMessage l k (ifWellFormed l k (fun m => onConsole l (f m))) p).ClocksOk :=
  takeFormed_leads (fun _ hq => hq) (fun _ _ hq => hq) (fun m _ hq => onConsole_leads (fun _ hq => hq) (hf m) hq) h

theorem Part.ClocksOk.fromAccount {c : ClockId} {f : ToClock → Option (Part → Part)} (h : p.ClocksOk)
    (hf : ∀ m g, f m = some g → ∀ q, q.ClocksOk → (g q).ClocksOk) : (takeFromAccount c f p).ClocksOk :=
  takeFromAccount_leads (fun _ hq => hq) (fun _ _ hq => hq) hf h

theorem Part.ClocksOk.fromSupply {c : ClockId} {f : ToClockFromSupply → Option (Part → Part)} (h : p.ClocksOk)
    (hf : ∀ m g, f m = some g → ∀ q, q.ClocksOk → (g q).ClocksOk) : (takeFromSupply c f p).ClocksOk :=
  takeFromSupply_leads h fun m _ g _ hg => hf m g hg _ (h.of_clocks rfl)

theorem Part.ClocksOk.fromClock {c : ClockId} {f : ToAccount → Option (Part → Part)} (h : p.ClocksOk)
    (hf : ∀ m g, f m = some g → ∀ q, (g q).market = q.market) : (takeFromClock c f p).ClocksOk :=
  takeFromClock_leads (fun _ hq => hq) (fun _ _ hq => hq) (fun m g hg q hq => hq.of_market (hf m g hg q)) h

theorem Part.ClocksOk.clockEvent {c : ClockId} {f : ClockEvent → Option (Part → Part)} (h : p.ClocksOk)
    (hf : ∀ m g, f m = some g → ∀ q, (g q).market = q.market) : (takeClockEvent c f p).ClocksOk :=
  takeClockEvent_leads (fun _ hq => hq) (fun _ _ hq => hq) (fun m g hg q hq => hq.of_market (hf m g hg q)) h

theorem Part.ClocksOk.ofReport {src : ReportSource} {f : Report → Option (Part → Part)} (h : p.ClocksOk)
    (hf : ∀ m g, f m = some g → ∀ q, (g q).market = q.market) : (takeReport src f p).ClocksOk :=
  takeReport_leads (fun _ hq => hq) (fun _ _ hq => hq) (fun _ _ _ hq => hq) (fun m g hg q hq => hq.of_market (hf m g hg q)) h

/-- R40, R151: at the loss of a link the clock of a console is held; the other roles leave the clocks alone. -/
theorem lossStep_clocksOk {l : LinkId} (h : p.ClocksOk) : (lossStep l p).ClocksOk := by
  unfold lossStep
  split
  · exact h
  · simp only [loseLink]
    split
    · exact h.of_clocks rfl
    · next r _ =>
      generalize hq : Part.updLink _ l Link.lost = q
      have h : q.ClocksOk := hq ▸ h.of_clocks rfl
      cases r with
      | logistics => exact h.of_clocks (logisticsLost_steady q).1
      | console c => exact consoleLost_clocksOk h
      | deskGroup => exact h.of_market (deskGroupLost_market l q)
      | settlement => exact h.of_market (settlementLost_market q)
      | display => exact h.of_market (displayLost_outside l q).1
      | supervision => exact h.of_market (supervisionLost_outside q).1

/-! ### Every command -/

theorem effect_clocksOk (i : Instr) (h : p.ClocksOk) : (effect i p).ClocksOk := by
  have hm : ∀ {q : Part}, q.market = p.market → q.ClocksOk := h.of_market
  have hformed : ∀ {l k f}, (∀ m q, (f m q : Part).market = q.market) → (takeMessage l k (ifWellFormed l k f) p).ClocksOk :=
    fun hf => h.logistics fun m q => (Part.market_eq_iff.mp (hf m q)).2.1
  cases i with
  | reset | resetPinHeldLow => exact Part.reset_agrees.clocks
  | lineActivity l => exact hm (lineActive_outside l p).1
  | frameReceived l bytes => exact hm (receive_market l bytes p)
  | keepMarker l => simp only [effect]; split; exacts [hm (keepFrom_outside l p).1, h]
  | waitMarker l => simp only [effect]; split; exacts [hm (waitFrom_outside l p).1, h]
  | goMarker l => simp only [effect]; split; exacts [hm (goFrom_market l p), h]
  | lossTimerExpiry l => exact lossStep_clocksOk h
  | keepTimerExpiry l => exact hm (keepStep_outside l p).1
  | frameSent l => exact hm (transmit_market l p)
  | unknownKind l => exact hm (unknownStep_outside l p).1
  | announce l => exact h.message (takeAnnounce_market l)
  | trainHeader l => exact h.logistics fun m q => (takeTrainHeader_steady l m q).1
  | trolleyEntry l => exact h.logistics fun m q => (takeTrolleyEntry_steady l m q).1
  | trolleyArrived l => exact h.logistics fun m q => (takeTrolleyArrived_steady l m q).1
  | lotWithdraw l => exact h.logistics fun m q => (takeLotWithdraw_steady l m q).1
  | trainWithdraw l => exact h.logistics fun m q => (takeTrainWithdraw_steady l m q).1
  | trolleyDeparted l => exact h.logistics fun m q => (takeTrolleyDeparted_steady l m q).1
  | slotQuery l => exact hformed fun m q => (takeSlotQuery_outside l m q).1
  | lotDoneReport c => exact h.of_clocks (lotDoneStep_steady c p).1
  | headLotPresented c =>
    refine h.fromSupply fun m g hg q hq => ?_
    cases m <;> cases hg
    exact takeHeadLot_clocksOk hq
  | noPresentedHead c =>
    refine h.fromSupply fun m g hg q hq => ?_
    cases m <;> cases hg
    exact hq
  | lotWithdrawn c =>
    refine h.fromSupply fun m g hg q hq => ?_
    cases m <;> cases hg
    exact takeLotWithdrawn_clocksOk hq
  | clockConfigure l => exact h.console fun m c q hq => takeConfigure_clocksOk hq
  | start l => exact h.console fun m c q hq => takeStart_clocksOk hq
  | holdClock l => exact h.console fun m c q hq => takeHold_clocksOk hq
  | resume l => exact h.console fun m c q hq => takeResume_clocksOk hq
  | withdrawLot l => exact h.console fun m c q hq => takeWithdraw_clocksOk hq
  | strideEnd c => exact strideStep_clocksOk h
  | windowExpiry c => exact windowStep_clocksOk h
  | restartDelayEnd c => exact restartStep_clocksOk h
  | bid l => exact h.message (takeBid_market l)
  | admittedBid c =>
    refine h.fromAccount fun m g hg q hq => ?_
    cases m <;> cases hg
    exact takeAdmittedBid_clocksOk hq
  | placement c =>
    refine h.fromAccount fun m g hg q hq => ?_
    cases m <;> cases hg
    exact takePlacement_clocksOk hq
  | cancelOrder l => exact hformed fun m q => boundDesk_market (takeCancelOrder_market l m) q
  | cancelRequest c =>
    refine h.fromAccount fun m g hg q hq => ?_
    cases m <;> cases hg
    exact takeCancel_clocksOk hq
  | buyerNotice c =>
    refine h.fromAccount fun m g hg q hq => ?_
    cases m <;> cases hg
    exact takeNotice_clocksOk hq
  | endRequest c =>
    refine h.fromAccount fun m g hg q hq => ?_
    cases m <;> cases hg
    exact takeEndRequest_clocksOk hq
  | hallNoticeOpen c =>
    refine h.fromAccount fun m g hg q hq => ?_
    rcases m with _ | _ | _ | _ | _ | ⟨_ | _ | _⟩ | _ | _ <;> cases hg
    exact noticeOpen_clocksOk hq
  | hallNoticeClosing c =>
    refine h.fromAccount fun m g hg q hq => ?_
    rcases m with _ | _ | _ | _ | _ | ⟨_ | _ | _⟩ | _ | _ <;> cases hg
    exact noticeClosing_clocksOk hq
  | hallNoticeClosed c =>
    refine h.fromAccount fun m g hg q hq => ?_
    rcases m with _ | _ | _ | _ | _ | ⟨_ | _ | _⟩ | _ | _ <;> cases hg
    exact noticeClosed_clocksOk hq
  | reservation c =>
    refine h.fromClock fun m g hg q => ?_
    cases m <;> cases hg
    exact takeReservation_market c _ q
  | grant c =>
    refine h.fromAccount fun m g hg q hq => ?_
    cases m <;> cases hg
    exact takeGrant_clocksOk hq
  | refuse c =>
    refine h.fromAccount fun m g hg q hq => ?_
    cases m <;> cases hg
    exact takeRefuse_clocksOk hq
  | deliverOutcome c =>
    refine h.fromClock fun m g hg q => ?_
    cases m <;> cases hg
    · exact (deliver_outside _ _ _ q).1
    · exact (deliverReply_outside _ _ _ q).1
  | orderEnded c =>
    refine h.fromClock fun m g hg q => ?_
    cases m <;> cases hg
    exact (sendOrderEnded_outside _ _ _ q).1
  | activityReport c =>
    refine h.fromClock fun m g hg q => ?_
    cases m <;> cases hg
    exact takeActivity_market c _ _ q
  | login l => exact h.message (takeLogin_market l)
  | logout l => exact hformed fun m q => boundDesk_market (takeLogout_market l m) q
  | present l => exact hformed fun m q => boundDesk_market (takePresent_market l m) q
  | ageExpiry desk => exact hm (ageStep_market desk p)
  | snapshotRequest l => exact hformed fun m q => (takeSnapshot_outside l m q).1
  | buyerSet l => exact hformed (takeBuyerSet_market l)
  | buyerRemove l => exact hformed (takeBuyerRemove_market l)
  | creditLimit l => exact hformed (takeCreditLimit_market l)
  | block l => exact hformed (setBlocked_market l true)
  | unblock l => exact hformed (setBlocked_market l false)
  | tariffLoad l => exact hformed (takeTariffLoad_market l)
  | closeInvoice l => exact hformed (takeCloseInvoice_market l)
  | settled l => exact hformed (takeSettled_market l)
  | openDay l => exact hformed (takeOpenDay_market l)
  | closeDay l => exact hformed (takeCloseDay_market l)
  | statisticsRequest l => exact hformed fun m q => (takeStatistics_outside l m q).1
  | stateEvent c =>
    refine h.clockEvent fun m g hg q => ?_
    cases m <;> cases hg
    exact (takeStateEvent_outside c _ q).1
  | strideEvent c =>
    refine h.clockEvent fun m g hg q => ?_
    cases m <;> cases hg
    exact (takeStrideEvent_outside c _ q).1
  | awardEvent c =>
    refine h.clockEvent fun m g hg q => ?_
    cases m <;> cases hg
    exact (takeAwardEvent_outside c _ _ q).1
  | divisorEvent c =>
    refine h.clockEvent fun m g hg q => ?_
    cases m <;> cases hg
    exact (takeDivisorEvent_outside c _ _ q).1
  | supplyUnitEvent c => exact hm (supplyEventStep_outside c p).1
  | frameTimerExpiry c => exact hm (frameTimerStep_outside c p).1
  | bidCopy src =>
    refine h.ofReport fun m g hg q => ?_
    cases m <;> cases hg
    exact (copyBid_outside _ q).1
  | outcomeCopy src =>
    refine h.ofReport fun m g hg q => ?_
    cases m <;> cases hg
    exact (copyOutcome_outside _ q).1

end

/-- Settles O5: what each operation of a Clock Unit does to it keeps it as it should be, and every other command leaves the clocks alone. -/
theorem clocksKept : Obligations.ClocksKept := kept_of_effect (fun _ _ h => h) fun i _ h => effect_clocksOk i h

end Sys2Proof.Machine
end

section
/-! What the Clock Units' operations come to as equations on the part, in the words of the statements: a state entered, orders ended,
candidates refused, a lot done. -/

namespace Sys2Proof.Machine

section
variable {p q : Part} {c : ClockId} {k : ClockUnit} {f : ClockUnit → ClockUnit}

/-! ### A state entered (R27) -/

/-- CLOCK STATE is read from the lots and from a Clock Unit's state and run record. -/
theorem Part.clockStateBody_congr (hl : q.supply.lots = p.supply.lots) (hs : (q.clocks.get c).state = (p.clocks.get c).state)
    (hr : (q.clocks.get c).run = (p.clocks.get c).run) : q.clockStateBody c = p.clockStateBody c := by
  have hlot : q.lot = p.lot := funext fun i => by simp [Part.lot, hl]
  simp [Part.clockStateBody, Part.lotUnits, hlot, hs, hr]

/-- So is the clock report of the Display Unit. -/
theorem Part.report_congr (hl : q.supply.lots = p.supply.lots) (hs : (q.clocks.get c).state = (p.clocks.get c).state)
    (hr : (q.clocks.get c).run = (p.clocks.get c).run) : q.report c = p.report c := by
  have hlot : q.lot = p.lot := funext fun i => by simp [Part.lot, hl]
  simp [Part.report, Part.lotReport, hlot, hs, hr]

theorem Part.stateTold_congr (hl : q.supply.lots = p.supply.lots) (hs : (q.clocks.get c).state = (p.clocks.get c).state)
    (hr : (q.clocks.get c).run = (p.clocks.get c).run) : q.stateTold c = p.stateTold c := by
  funext h
  simp only [Part.stateTold, Part.report_congr hl hs hr, hs]

/-- The fields of a Clock Unit that are not told may be written behind the change of state. -/
theorem Part.enters_updClock (p : Part) (c : ClockId) (k : ClockUnit) (hs : (f k).state = k.state) (hr : (f k).run = k.run) :
    (p.enters c k).updClock c f = p.enters c (f k) := by
  have hbody := Part.clockStateBody_congr (c := c) (p := { p with clocks := p.clocks.upd c (fun _ => k) })
    (q := { p with clocks := p.clocks.upd c (fun _ => f k) }) rfl (by simpa using hs) (by simpa using hr)
  have htold := Part.stateTold_congr (c := c) (p := { p with clocks := p.clocks.upd c (fun _ => k) })
    (q := { p with clocks := p.clocks.upd c (fun _ => f k) }) rfl (by simpa using hs) (by simpa using hr)
  simp only [Part.enters, Part.updClock, PerClock.upd_upd, hbody, htold]

/-- What the Clock Unit was before is not told. -/
theorem Part.updClock_enters (p : Part) (c : ClockId) (f : ClockUnit → ClockUnit) (k : ClockUnit) :
    (p.updClock c f).enters c k = p.enters c k := by
  simp only [Part.enters, Part.updClock, PerClock.upd_upd]
  rfl

/-- A report for the mirror and a change of state are told on channels of their own. -/
theorem Part.clockReport_enters (p : Part) (c : ClockId) (r : Report) (k : ClockUnit) :
    (p.clockReport c r).enters c k = (p.enters c k).clockReport c r := by
  simp only [Part.enters, Part.clockReport, Part.updChannels, PerClock.upd_upd]
  rfl

theorem Part.enters_linkOf (p : Part) (c : ClockId) (k : ClockUnit) (r : Role) : (p.enters c k).linkOf r = p.linkOf r :=
  Part.linkOf_consoleTold (p := p) (t := p) rfl r

@[simp] theorem Part.enters_get (p : Part) (c : ClockId) (k : ClockUnit) : (p.enters c k).clocks.get c = k := PerClock.get_upd_self _ _ _

/-! ### Orders that end (R96) -/

/-- Orders that end one after another leave the table, each told in its turn. -/
theorem endAll_eq (c : ClockId) (reason : EndReason) (os : List Order) (p : Part) : endAll c reason os p =
    (p.updClock c (fun k => { k with orders := k.orders.filter (fun x => !(os.any (fun o => decide (o.number = x.number)))) })).updChannels c
      (fun h => { h with clockToAccount := h.clockToAccount ++ os.map (fun o => o.ended c reason o.count o.target none) }) := by
  induction os generalizing p with
  | nil =>
    simp only [endAll, List.foldl_nil, List.any_nil, List.map_nil, List.append_nil, Bool.not_false, List.filter_true]
    simp only [Part.updClock, Part.updChannels, PerClock.upd_eq_self]
  | cons o rest ih =>
    rw [endAll, List.foldl_cons, ← endAll, ih]
    simp only [endOrder, Part.toAccount, Part.updClock, Part.updChannels, PerClock.upd_upd, List.filter_filter, List.append_assoc,
      List.map_cons, List.any_cons, Bool.not_or, Order.ended]
    congr 2
    funext k
    congr 2
    funext x
    rw [Bool.and_comm]
    simp [eq_comm]

/-! ### Candidates refused (R63, R170) -/

/-- A candidate refused with a cause that ends no order. -/
theorem refuseCandidate_eq (offered : Option Nat) {cause : Cause} (x : Candidate) (p : Part) (h : cause ≠ .credit) :
    refuseCandidate c offered cause p x = p.updChannels c (fun v => { v with
      clockToAccount := v.clockToAccount ++ [(p.clocks.get c).refusal c cause x],
      clockReports := v.clockReports ++ [(p.clocks.get c).refusalReport c cause offered x] }) := by
  have hend : ∀ q, endIfCredit c cause x q = q := fun q => by
    unfold endIfCredit
    split
    · exact absurd rfl h
    · rfl
  simp only [refuseCandidate, hend, Part.clockReport, Part.toAccount, Part.updChannels, PerClock.upd_upd]
  rfl

theorem refuseAll_eq {cause : Cause} (xs : List Candidate) (p : Part) (h : cause ≠ .credit) :
    refuseAll c cause xs p = p.updChannels c ((p.clocks.get c).refusals c cause xs) := by
  induction xs generalizing p with
  | nil =>
    simp [refuseAll, ClockUnit.refusals, Part.updChannels, PerClock.upd_eq_self]
  | cons x rest ih =>
    rw [refuseAll, List.foldl_cons, ← refuseAll, ih, refuseCandidate_eq none x p h]
    simp only [Part.updChannels, PerClock.upd_upd]
    congr 2
    funext v
    simp [ClockUnit.refusals]

/-! ### A lot done (R29) -/

/-- The lot in a clock's run record has a record, and the trolley in the clock's slot a pick list. -/
structure Part.OnSale (p : Part) (c : ClockId) (id : Nat) (t : Lot) (picks : List Pick) : Prop where
  lot : (p.clocks.get c).run.lot = some id
  record : p.lot id = some t
  picks : p.slotPicks c = picks

variable {id : Nat} {t : Lot} {picks : List Pick}

theorem Part.OnSale.saleId (h : p.OnSale c id t picks) : p.saleId c = id := by simp [Part.saleId, h.lot]

theorem Part.OnSale.saleLot (h : p.OnSale c id t picks) : p.saleLot c = t := by simp [Part.saleLot, h.saleId, h.record]

theorem Part.OnSale.of_eq (h : p.OnSale c id t picks) (hs : q.supply = p.supply)
    (hr : (q.clocks.get c).run.lot = (p.clocks.get c).run.lot) : q.OnSale c id t picks := by
  refine ⟨hr.trans h.lot, ?_, ?_⟩
  · rw [Part.lot, hs]; exact h.record
  · rw [← h.picks]; simp [Part.slotPicks, Part.trolley, hs]

/-- The pick list of a trolley that stands in the clock's slot. -/
theorem Part.slotPicks_eq {n : Nat} {r : Trolley} (hn : p.supply.slots.get c = some n) (hr : p.trolley n = some r) :
    p.slotPicks c = r.picks := by
  simp [Part.slotPicks, hn, hr]

/-- The end of a lot reads of the Clock Unit what it leaves of it. -/
theorem Part.updClock_lotEnds {g : ClockUnit → ClockUnit} (o : LotOutcome)
    (h : (f (p.clocks.get c)).lotGone = (g (p.clocks.get c)).lotGone) :
    (p.updClock c f).lotEnds c id t o = (p.updClock c g).lotEnds c id t o := by
  have hrun : (f (p.clocks.get c)).lotGone.run.run = (g (p.clocks.get c)).lotGone.run.run := by rw [h]
  replace hrun : (f (p.clocks.get c)).run.run = (g (p.clocks.get c)).run.run := hrun
  simp only [Part.lotEnds, Part.updClock, Part.enters, PerClock.get_upd_self, PerClock.upd_upd, h, hrun]
  rfl

/-- R29: all that a lot done does. -/
theorem lotDone_eq (o : LotOutcome) (hlot : (p.clocks.get c).run.lot = some id) (ht : p.lot id = some t) :
    lotDone c o p = p.lotEnds c id t o := by
  let gone : Part := p.updLot id (fun t => { t with state := o.lotState })
  have hid : p.saleId c = id := by simp [Part.saleId, hlot]
  have henter : enterState c .idle (gone.updClock c ClockUnit.cleared) = gone.enters c (p.clocks.get c).lotGone := by
    rw [enterState_enters c .idle _ (p.clocks.get c).lotGone (by simp [gone, ClockUnit.cleared, RunRecord.cleared, ClockUnit.lotGone]),
      Part.updClock_enters]
  have hbody : (gone.enters c (p.clocks.get c).lotGone).lotClosedBody c id o =
      ⟨id, o, .console, t.remaining, t.sold, some (p.clocks.get c).run.run⟩ := by
    have hrecord : (gone.enters c (p.clocks.get c).lotGone).lot id = some { t with state := o.lotState } := by
      have := Table.find_modify_self p.supply.lots id (fun t => { t with state := o.lotState })
      rw [show Table.find p.supply.lots id = some t from ht] at this
      exact this
    simp only [Part.lotClosedBody, hrecord, Option.getD_some, Part.enters_get]
    rfl
  simp only [lotDone, hid]
  rw [henter, hbody, Part.toConsole_eq (t := p) (gone.enters_linkOf c _ _)]
  rfl

/-! ### The window abandoned (R62) -/

/-- The candidates of an abandoned window are refused. -/
theorem abandonWindow_eq (c : ClockId) (p : Part) : abandonWindow c p =
    (p.updChannels c ((p.clocks.get c).refusals c .withdrawn (p.clocks.get c).candidates)).updClock c
      (fun k => { k.endDecision with windowTimer := none }) := by
  simp only [abandonWindow]
  rw [refuseAll_eq _ _ (by decide)]
  simp only [Part.updClock, Part.updChannels, PerClock.upd_upd, PerClock.get_upd_self]
  rfl

end

end Sys2Proof.Machine
end

section
/-! The console's messages to a clock: CLOCK CONFIGURE (O32), HOLD CLOCK and RESUME (O36), WITHDRAW LOT (O37). -/

namespace Sys2Proof.Machine

/-! ### A message of the console taken -/

section
variable {s : State} {l : LinkId} {c : ClockId} {k : Kind} {raw : List Byte} {f : Message → ClockId → Part → Part}

/-- R156: a message of a CONSOLE link goes to the Clock Unit of the role's clock. -/
theorem State.Takes.onConsole (h : s.Takes l (.console c) k raw) (m : Message) :
    Machine.onConsole l (f m) (s.part.taking l) = f m c (s.part.taking l) := by
  have hrole : ((s.part.taking l).links.get l).role = some (.console c) := by
    obtain ⟨-, -, hrole, -⟩ := h
    simpa [Part.unqueued] using hrole
  unfold Machine.onConsole
  rw [hrole]

/-- What the Clock Unit makes of a message of its console is what the command leaves. -/
theorem State.Takes.consoleGives (h : s.Takes l (.console c) k raw) {q : Part} (hf : f (parse raw) c (s.part.taking l) = q) :
    run s (takeMessage l k (ifWellFormed l k (fun m => Machine.onConsole l (f m)))) = .next (s.after q) :=
  h.gives (Eq.trans (h.onConsole (parse raw)) hf)

/-- A message of its console that the Clock Unit refuses. -/
theorem State.Takes.consoleRefused (h : s.Takes l (.console c) k raw) {cause : Cause}
    (hf : f (parse raw) c (s.part.taking l) = (s.part.taking l).refuseMsg l (parse raw) cause) :
    run s (takeMessage l k (ifWellFormed l k (fun m => Machine.onConsole l (f m)))) = .next (s.refusing l raw cause) :=
  h.refused (Eq.trans (h.onConsole (parse raw)) hf)

/-- The part once a message has been taken and answered. -/
theorem State.Takes.reply (h : s.Takes l (.console c) k raw) (b : OutBody) :
    (s.part.taking l).reply l (parse raw) b = { s.part with links := s.part.answered l raw b } :=
  Part.reply_taken h.up rfl _ _

end

@[simp] theorem Part.taking_clocks (p : Part) (l : LinkId) : (p.taking l).clocks = p.clocks := rfl

/-! ### CLOCK CONFIGURE (R24) -/

/-- Clamping as the statements spell it. -/
theorem clampTo_eq {lo hi : Nat} (h : lo ≤ hi) (v : Nat) : clampTo lo hi v = max lo (min hi v) := by
  unfold clampTo
  split_ifs <;> omega

/-- The values that clamping changes. -/
theorem clampTo_ne_iff {lo hi : Nat} (h : lo ≤ hi) (v : Nat) : clampTo lo hi v ≠ v ↔ v < lo ∨ hi < v := by
  rw [clampTo_eq h]
  omega

/-- R23: no range is empty. -/
theorem Param.bounds_le (p : Param) : p.bounds.1 ≤ p.bounds.2 := by cases p <;> decide

/-- One parameter of a CLOCK CONFIGURE: its value when the message holds it and the value it had when not. -/
theorem ClockConfig.take_eq (k : ClockConfig) (p : Param) (given : Bool) (v old : Nat) (h : k.setParam p old = k) :
    k.take (p, if given then some v else none) =
      k.setParam p (if given then max p.bounds.1 (min p.bounds.2 v) else old) := by
  cases given with
  | false => exact h.symm
  | true => simp only [ClockConfig.take, if_true, clampTo_eq p.bounds_le]

/-- A parameter is listed when it is held and clamping changes it. -/
theorem mem_clampedParams {p : Param} {items : List (Param × Option Nat)} :
    p ∈ clampedParams items ↔ ∃ v, (p, some v) ∈ items ∧ (v < p.bounds.1 ∨ p.bounds.2 < v) := by
  simp only [clampedParams, List.mem_filterMap]
  constructor
  · rintro ⟨⟨r, _ | v⟩, hm, hr⟩
    · cases hr
    · by_cases hv : clampTo r.bounds.1 r.bounds.2 v = v
      · simp [hv] at hr
      · obtain rfl : r = p := by simpa [hv] using hr
        exact ⟨v, hm, (clampTo_ne_iff r.bounds_le v).mp hv⟩
  · rintro ⟨v, hm, hv⟩
    exact ⟨_, hm, by simp [(clampTo_ne_iff p.bounds_le v).mpr hv]⟩

/-- Where the value of a parameter stands among those of a CLOCK CONFIGURE. -/
def Param.index : Param → Nat
  | .stridePeriod => 0
  | .priceStep => 1
  | .stopWindow => 2
  | .lagLimit => 3
  | .floorDwell => 4
  | .restartMarkup => 5
  | .restartDelay => 6
  | .frameDivisor => 7

/-- What a CLOCK CONFIGURE holds of a parameter. -/
theorem mem_readConfigure {p : Param} {v : Nat} {b : List Byte} : (p, some v) ∈ readConfigure b ↔
    (fieldAt b 0 1).testBit p.index = true ∧ v = fieldAt b (1 + 2 * p.index) 2 := by
  cases p <;> simp [readConfigure, Param.index]

theorem mem_clampedParams_read {p : Param} {b : List Byte} : p ∈ clampedParams (readConfigure b) ↔
    ((fieldAt b 0 1).testBit p.index &&
      decide (fieldAt b (1 + 2 * p.index) 2 < p.bounds.1 ∨ p.bounds.2 < fieldAt b (1 + 2 * p.index) 2)) = true := by
  rw [mem_clampedParams, Bool.and_eq_true, decide_eq_true_eq]
  constructor
  · rintro ⟨v, hm, hv⟩
    obtain ⟨hbit, rfl⟩ := mem_readConfigure.mp hm
    exact ⟨hbit, hv⟩
  · rintro ⟨hbit, hv⟩
    exact ⟨_, mem_readConfigure.mpr ⟨hbit, rfl⟩, hv⟩

/-- CLOCK CONFIGURE in a state that takes it. -/
theorem takeConfigure_eq {l : LinkId} {m : Message} {c : ClockId} {p : Part} {config : ClockConfig}
    (hs : (p.clocks.get c).state = .idle ∨ (p.clocks.get c).state = .ready ∨ (p.clocks.get c).state = .held)
    (hc : (p.clocks.get c).config.takeAll (readConfigure m.body) = config) :
    takeConfigure l m c p =
      ((p.updClock c (fun k => { k with config := config })).reply l m (.configured config (clampedParams (readConfigure m.body)))).updChannels
        c (fun h => if config.frameDivisor = (p.clocks.get c).config.frameDivisor then h
          else { h with clockToDisplay := h.clockToDisplay ++ [.divisor (p.report c) config.frameDivisor] }) := by
  simp only [takeConfigure, if_pos hs, hc]
  split
  · simp only [Part.updChannels, PerClock.upd_eq_self]
  · simp only [Part.toDisplay]
    rw [Part.report_congr (p := p) (by simp) (by simp) (by simp)]

/-- Settles O32: the parameters are taken one by one, and each is listed when its bit is set and its value out of range. -/
theorem clockConfigured : Obligations.ClockConfigured := by
  intro l c raw s h k b value clamped config
  refine ⟨fun hi hr hh => ?busy, fun hs => ⟨clampedParams (readConfigure b), ?takes, mem_clampedParams_read, mem_clampedParams_read,
    mem_clampedParams_read, mem_clampedParams_read, mem_clampedParams_read, mem_clampedParams_read, mem_clampedParams_read,
    mem_clampedParams_read⟩⟩
  case busy =>
    have hs : ¬ (k.state = .idle ∨ k.state = .ready ∨ k.state = .held) := by simp [hi, hr, hh]
    exact h.consoleRefused (by simp only [takeConfigure]; exact if_neg hs)
  case takes =>
    have hc : k.config.takeAll (readConfigure b) = config := by
      simp only [ClockConfig.takeAll, readConfigure, List.foldl_cons, List.foldl_nil]
      rw [ClockConfig.take_eq _ .stridePeriod _ _ k.config.stridePeriod rfl, ClockConfig.take_eq _ .priceStep _ _ k.config.priceStep rfl,
        ClockConfig.take_eq _ .stopWindow _ _ k.config.stopWindow rfl, ClockConfig.take_eq _ .lagLimit _ _ k.config.lagLimit rfl,
        ClockConfig.take_eq _ .floorDwell _ _ k.config.floorDwell rfl, ClockConfig.take_eq _ .restartMarkup _ _ k.config.restartMarkup rfl,
        ClockConfig.take_eq _ .restartDelay _ _ k.config.restartDelay rfl, ClockConfig.take_eq _ .frameDivisor _ _ k.config.frameDivisor rfl]
      rfl
    refine h.consoleGives (Eq.trans (takeConfigure_eq (p := s.part.taking l) hs hc) ?_)
    rw [Part.reply_taken h.up rfl]
    rfl

/-! ### HOLD CLOCK and RESUME (R37, R38) -/

section
variable {p : Part} {c : ClockId}

/-- All that a clock held at once does. -/
theorem holdNow_enters (c : ClockId) (back : HeldFrom) (cause : HoldCause) (p : Part) :
    holdNow c back cause p = p.enters c { p.clocks.get c with
      state := .held, strideTimer := none, restartTimer := none,
      run := { (p.clocks.get c).run with heldFrom := some back, holdCause := some cause } } := by
  simp only [holdNow]
  rw [enterState_enters c .held _ _ rfl, Part.updRun, Part.updClock_enters, Part.updClock_enters]
  simp

/-- All that a clock that descends again does. -/
theorem startStride_enters (c : ClockId) (st : ClockState) (p : Part) :
    enterState c st (startStride c p) =
      p.enters c { p.clocks.get c with state := st, strideTimer := some (p.now + (p.clocks.get c).config.stridePeriod) } := by
  rw [startStride, enterState_enters c st _ _ rfl, Part.updClock_enters]
  simp

theorem enterRestart_enters (c : ClockId) (p : Part) : enterRestart c p =
    p.enters c { p.clocks.get c with state := .restart, restartTimer := some (p.now + (p.clocks.get c).config.restartDelay) } := by
  rw [enterRestart, startRestart, enterState_enters c .restart _ _ rfl, Part.updClock_enters]
  simp

/-- HOLD CLOCK of a clock that descends or counts its restart delay. -/
theorem takeHold_now {l : LinkId} {m : Message} {back : HeldFrom} (h : (p.clocks.get c).state = back.state) :
    takeHold l m c p = holdNow c back .console (p.reply l m (.ack (.hold false))) := by
  unfold takeHold
  cases back <;> rw [h] <;> rfl

theorem takeHold_later {l : LinkId} {m : Message} (h : (p.clocks.get c).state = .window ∨ (p.clocks.get c).state = .awarding) :
    takeHold l m c p = holdLater c .console (p.reply l m (.ack (.hold true))) := by
  unfold takeHold
  rcases h with h | h <;> rw [h]

/-- The hold of a clock in a window or a decision, as a change of the Clock Unit. -/
theorem holdLater_eq (c : ClockId) (cause : HoldCause) (p : Part) : holdLater c cause p = p.updClock c (fun x =>
    if x.run.pendingHold then x else { x with run := { x.run with pendingHold := true, holdCause := some cause } }) := by
  simp only [holdLater, Part.updRun]
  congr 1
  funext x
  split <;> rfl

/-- A hold that is pending already is kept. -/
theorem holdLater_held {cause : HoldCause} (h : (p.clocks.get c).run.pendingHold = true) : holdLater c cause p = p := by
  rw [holdLater_eq, Part.updClock, PerClock.upd_eq_self]
  exact if_pos h

theorem holdLater_first {cause : HoldCause} (h : (p.clocks.get c).run.pendingHold = false) : holdLater c cause p =
    p.updClock c (fun x => { x with run := { x.run with pendingHold := true, holdCause := some cause } }) := by
  rw [holdLater_eq, Part.updClock, Part.updClock]
  congr 1
  exact PerClock.upd_congr _ _ _ _ (if_neg (by simp [h]))

/-- RESUME in a window or a decision. -/
theorem takeResume_pending {l : LinkId} {m : Message} (h : (p.clocks.get c).state = .window ∨ (p.clocks.get c).state = .awarding) :
    takeResume l m c p = resumePending l m c p := by
  unfold takeResume
  rcases h with h | h <;> rw [h]

theorem takeResume_held {l : LinkId} {m : Message} (h : (p.clocks.get c).state = .held) :
    takeResume l m c p = resumeHeld c (p.reply l m (.ack .plain)) := by
  unfold takeResume
  rw [h]

/-- A clock held from RUNNING or FLOOR descends again. -/
theorem resumeHeld_descends {back : HeldFrom} (h : (p.clocks.get c).run.heldFrom = some back) (hb : back ≠ .restart) :
    resumeHeld c p = p.enters c { p.clocks.get c with
      state := back.state, strideTimer := some (p.now + (p.clocks.get c).config.stridePeriod),
      run := { (p.clocks.get c).run with heldFrom := none, holdCause := none } } := by
  cases back with
  | restart => exact absurd rfl hb
  | running =>
    simp only [resumeHeld, h]
    rw [startStride_enters, Part.updRun, Part.updClock_enters]
    simp [HeldFrom.state]
  | floor =>
    simp only [resumeHeld, h]
    rw [startStride_enters, Part.updRun, Part.updClock_enters]
    simp [HeldFrom.state]

/-- A clock held from RESTART waits again, or goes on to READY in a hall that is not OPEN. -/
theorem resumeHeld_restart (h : (p.clocks.get c).run.heldFrom = some .restart) :
    resumeHeld c p =
      let q := p.enters c { p.clocks.get c with
        state := .restart, restartTimer := some (p.now + (p.clocks.get c).config.restartDelay),
        run := { (p.clocks.get c).run with heldFrom := none, holdCause := none } }
      if (p.clocks.get c).run.hallView = .opened then q else enterReady c q := by
  simp only [resumeHeld, h]
  rw [enterRestart_enters, Part.updRun, Part.updClock_enters]
  simp

end

/-- Settles O36: HOLD CLOCK and RESUME by the clock state, and a clock held by the state it returns to. -/
theorem holdAndResume : Obligations.HoldAndResume := by
  refine ⟨?hold, ?resume⟩
  case hold =>
    intro l c raw s h k becomes acked
    refine ⟨fun hs => h.consoleRefused ?_, fun hs => h.consoleGives ?_, fun back hs => h.consoleGives ?_, fun hs => h.consoleGives ?_⟩
    · unfold takeHold
      rcases hs with hs | hs <;> rw [show ((s.part.taking l).clocks.get c).state = _ from hs]
    · unfold takeHold
      rw [show ((s.part.taking l).clocks.get c).state = _ from hs]
      exact h.reply _
    · rw [takeHold_now (p := s.part.taking l) hs, h.reply, holdNow_enters]
    · rw [takeHold_later (p := s.part.taking l) hs, h.reply, holdLater_eq]
      rfl
  case resume =>
    intro l c raw s h k becomes acked back descends delayed
    refine ⟨fun hh hw ha => h.consoleRefused ?refused, fun hs => ⟨fun hp => h.consoleRefused ?notPending, fun hp => h.consoleGives ?pending⟩,
      fun hs => ⟨fun hb => h.consoleGives ?_, fun hb => h.consoleGives ?_, fun hb hv => h.consoleGives ?waits, fun hb hv => h.consoleGives ?ready⟩⟩
    case refused =>
      unfold takeResume
      cases hs : ((s.part.taking l).clocks.get c).state with
      | held => exact absurd hs hh
      | window => exact absurd hs hw
      | awarding => exact absurd hs ha
      | _ => rfl
    case notPending =>
      rw [takeResume_pending (p := s.part.taking l) hs, resumePending, if_neg (by rw [Part.taking_clocks, hp]; decide)]
    case pending =>
      rw [takeResume_pending (p := s.part.taking l) hs, resumePending, if_pos (by exact hp), Part.reply_taken h.up rfl]
      rfl
    · rw [takeResume_held (p := s.part.taking l) hs, h.reply, resumeHeld_descends (p := acked) (back := .running) hb (by decide)]
      rfl
    · rw [takeResume_held (p := s.part.taking l) hs, h.reply, resumeHeld_descends (p := acked) (back := .floor) hb (by decide)]
      rfl
    case waits =>
      rw [takeResume_held (p := s.part.taking l) hs, h.reply, resumeHeld_restart (p := acked) hb]
      exact if_pos hv
    case ready =>
      rw [takeResume_held (p := s.part.taking l) hs, h.reply, resumeHeld_restart (p := acked) hb]
      refine Eq.trans (if_neg hv) (enterReady_enters c _ _ ?_)
      rw [Part.enters_get]
      rfl

/-! ### WITHDRAW LOT (R39, R62) -/

section
variable {l : LinkId} {m : Message} {c : ClockId} {p : Part} {id : Nat}

/-- The lot id is judged first. -/
theorem takeWithdraw_zero (h : fieldAt m.body 0 4 = 0) : takeWithdraw l m c p = p.refuseMsg l m .malformed := by
  simp only [takeWithdraw]
  exact if_pos h

theorem takeWithdraw_idle (h : fieldAt m.body 0 4 ≠ 0) (hs : (p.clocks.get c).state = .idle) :
    takeWithdraw l m c p = p.refuseMsg l m .noLot := by
  simp only [takeWithdraw]
  rw [if_neg h, if_pos hs]

theorem takeWithdraw_other (h : fieldAt m.body 0 4 ≠ 0) (hs : (p.clocks.get c).state ≠ .idle)
    (hl : (p.clocks.get c).run.lot ≠ some (fieldAt m.body 0 4)) : takeWithdraw l m c p = p.refuseMsg l m .unknownLot := by
  simp only [takeWithdraw]
  rw [if_neg h, if_neg hs, if_neg hl]

theorem takeWithdraw_head (h : fieldAt m.body 0 4 ≠ 0) (hs : (p.clocks.get c).state ≠ .idle)
    (hl : (p.clocks.get c).run.lot = some (fieldAt m.body 0 4)) : takeWithdraw l m c p = withdrawHead l m c p := by
  simp only [takeWithdraw]
  rw [if_neg h, if_neg hs, if_pos hl]

theorem withdrawHead_awarding (hs : (p.clocks.get c).state = .awarding) : withdrawHead l m c p =
    (p.reply l m (.ack (.withdrawal true))).updRun c (fun r => { r with pendingWithdrawal := true }) := by
  unfold withdrawHead
  rw [hs]

/-- Outside AWARDING the lot ends; the candidates of an open window are refused first. -/
theorem withdrawHead_ends (hs : (p.clocks.get c).state ≠ .awarding) : withdrawHead l m c p =
    lotDone c .withdrawn (if (p.clocks.get c).state = .window then abandonWindow c (p.reply l m (.ack (.withdrawal false)))
      else p.reply l m (.ack (.withdrawal false))) := by
  unfold withdrawHead
  cases hst : (p.clocks.get c).state with
  | awarding => exact absurd hst hs
  | _ => rfl

/-- Refusing no candidate hands nothing over. -/
theorem ClockUnit.refusals_nil (k : ClockUnit) (c : ClockId) (cause : Cause) (h : Channels) : k.refusals c cause [] h = h := by
  simp [ClockUnit.refusals]

/-- R39, R62: the lot ends behind the window; with no window open there are no candidates to refuse. -/
theorem lotDone_abandoned {t : Lot} (o : LotOutcome) (hlot : (p.clocks.get c).run.lot = some id) (ht : p.lot id = some t)
    (hx : (p.clocks.get c).state ≠ .window → (p.clocks.get c).candidates = []) :
    lotDone c o (if (p.clocks.get c).state = .window then abandonWindow c p else p) =
      ((p.updChannels c ((p.clocks.get c).refusals c .withdrawn (p.clocks.get c).candidates)).updClock c
        (fun x => if x.state = .window then x.endDecision else x)).lotEnds c id t o := by
  split
  · next hs =>
    rw [abandonWindow_eq]
    refine Eq.trans (lotDone_eq (p := (p.updChannels c _).updClock c _) o (by simpa [ClockUnit.endDecision] using hlot) ht) ?_
    exact Part.updClock_lotEnds (p := p.updChannels c _) o (by simp [hs, ClockUnit.lotGone, ClockUnit.endDecision])
  · next hs =>
    have hnone : ∀ h, (p.clocks.get c).refusals c .withdrawn (p.clocks.get c).candidates h = h := fun h => by
      rw [hx hs, ClockUnit.refusals_nil]
    rw [lotDone_eq o hlot ht]
    simp only [Part.updClock, Part.updChannels]
    rw [PerClock.upd_eq_self _ _ _ (hnone _),
      PerClock.upd_eq_self p.clocks c (fun x => if x.state = .window then x.endDecision else x) (if_neg hs)]

end

/-- Settles O37: the refusals in order; outside AWARDING the lot ends, and with it an open window. -/
theorem lotWithdrawnByConsole : Obligations.LotWithdrawnByConsole := by
  intro l c raw s h k id
  refine ⟨fun h0 => h.consoleRefused (takeWithdraw_zero h0), fun h0 hs => h.consoleRefused (takeWithdraw_idle h0 hs),
    fun h0 hs hl => h.consoleRefused (takeWithdraw_other h0 hs hl), fun h0 hl hs => h.consoleGives ?pending,
    fun t h0 hl ht hok hi ha => h.consoleGives ?ends⟩
  case pending =>
    have hi : k.state ≠ .idle := by rw [hs]; decide
    rw [takeWithdraw_head (p := s.part.taking l) h0 hi hl, withdrawHead_awarding (p := s.part.taking l) hs, h.reply]
    rfl
  case ends =>
    let acked : Part := { s.part with links := s.part.answered l raw (.ack (.withdrawal false)) }
    obtain ⟨-, -, ⟨-, hnone, -⟩, -⟩ := hok
    have hx : k.state ≠ .window → k.candidates = [] := fun hw => hnone hw ha
    rw [takeWithdraw_head (p := s.part.taking l) h0 hi hl, withdrawHead_ends (p := s.part.taking l) ha, h.reply]
    exact lotDone_abandoned (p := acked) .withdrawn hl ht hx

end Sys2Proof.Machine
end

section
/-! What a clock is told: the loss of its console (O18), the head lot (O31), hall notices (O38). -/

namespace Sys2Proof.Machine

/-! ### The loss of the console (R40) -/

section
variable {p : Part} {c : ClockId}

/-- At the loss of a console its clock is told. -/
theorem lossStep_console {l : LinkId} {t : Nat} (ht : (p.links.get l).lossTimer = some t)
    (hr : (p.links.get l).role = some (.console c)) :
    lossStep l p = consoleLost c { p with links := p.links.upd l Link.lost, now := max p.now t } := by
  simp only [lossStep, ht, loseLink, Part.reach_links, hr]
  rfl

/-- A clock that descends or counts its restart delay is held. -/
theorem consoleLost_now {back : HeldFrom} (h : (p.clocks.get c).state = back.state) :
    consoleLost c p = holdNow c back .consoleLost p := by
  unfold consoleLost
  cases back <;> rw [h] <;> rfl

theorem consoleLost_later (h : (p.clocks.get c).state = .window ∨ (p.clocks.get c).state = .awarding) :
    consoleLost c p = holdLater c .consoleLost p := by
  unfold consoleLost
  rcases h with h | h <;> rw [h]

theorem consoleLost_quiet (h : (p.clocks.get c).state = .idle ∨ (p.clocks.get c).state = .ready ∨ (p.clocks.get c).state = .held) :
    consoleLost c p = p := by
  unfold consoleLost
  rcases h with h | h | h <;> rw [h]

end

/-- Settles O18: the loss of a console by the state of its clock. -/
theorem lostConsoleHoldsClock : Obligations.LostConsoleHoldsClock := by
  intro l c t s hpin ht hr k lost becomes
  have hgives : ∀ {q : Part}, consoleLost c lost = q → becomes q := fun {q} hq => by
    show exec (.lossTimerExpiry l) s = _
    rw [← hq, ← lossStep_console ht hr]
    exact run_high hpin _
  refine ⟨fun back hs => hgives ?_, fun hs => ⟨fun hp => hgives ?_, fun hp => hgives ?_⟩, fun hs => hgives (consoleLost_quiet hs)⟩
  · exact Eq.trans (consoleLost_now hs) (holdNow_enters c back .consoleLost lost)
  · exact Eq.trans (consoleLost_later (p := lost) hs) (holdLater_first hp)
  · exact Eq.trans (consoleLost_later (p := lost) hs) (holdLater_held hp)

/-! ### A hand-over taken -/

section
variable {s : State} {c : ClockId} {g : Part → Part} {q : Part}

/-- What a clock makes of a report of the Supply Unit is what the command leaves. -/
theorem takeFromSupply_gives {f : ToClockFromSupply → Option (Part → Part)} {m : ToClockFromSupply} {rest : List ToClockFromSupply}
    (hpin : s.pinLow = false) (h : (s.part.channels.get c).supplyToClock = m :: rest) (hf : f m = some g)
    (hg : g { s.part with channels := s.part.channels.upd c (fun h => { h with supplyToClock := rest }) } = q) :
    run s (takeFromSupply c f) = .next (s.after q) := by
  rw [run_high hpin, ← hg]
  simp only [takeFromSupply, h, hf]
  rfl

/-- The same for a hand-over of the Account Unit. -/
theorem takeFromAccount_gives {f : ToClock → Option (Part → Part)} {m : ToClock} {rest : List ToClock} (hpin : s.pinLow = false)
    (h : (s.part.channels.get c).accountToClock = m :: rest) (hf : f m = some g)
    (hg : g { s.part with channels := s.part.channels.upd c (fun h => { h with accountToClock := rest }) } = q) :
    run s (takeFromAccount c f) = .next (s.after q) := by
  rw [run_high hpin, ← hg]
  simp only [takeFromAccount, h, hf]
  rfl

end

/-! ### The head lot (R28, R93) -/

/-- R28, R93: a presented head lot makes an idle clock READY, and the orders of another product that hold until the change end. -/
theorem takeHeadLot_idle {c : ClockId} {lot : Nat} {t : Lot} {p : Part} (hs : (p.clocks.get c).state = .idle) (ht : p.lot lot = some t) :
    takeHeadLot c lot p =
      let k := p.clocks.get c
      let ends (o : Order) : Bool := o.untilChange && decide (o.product ≠ t.product)
      (p.enters c { k with state := .ready, orders := k.ordersLeft ends, run := k.run.ready lot t.minPrice }).updChannels c
        (fun h => { h with clockToAccount := h.clockToAccount ++
          (k.orders.filter ends).map (fun o => o.ended c .changed o.count o.target none) }) := by
  let ready : ClockUnit := { p.clocks.get c with state := .ready, run := (p.clocks.get c).run.ready lot t.minPrice }
  have henter : enterState c .ready (p.updRun c (fun r => r.ready lot t.minPrice)) = p.enters c ready := by
    rw [enterState_enters c .ready _ ready (by simp [ready]), Part.updRun, Part.updClock_enters]
  have hsale : (p.enters c ready).saleLot c = t := by
    have hid : (p.enters c ready).saleId c = lot := by simp [Part.saleId, ready, RunRecord.ready]
    rw [Part.saleLot, hid, show (p.enters c ready).lot lot = some t from ht]
    rfl
  have hleast : ((p.lot lot).getD Lot.absent).minPrice = t.minPrice := by rw [ht]; rfl
  simp only [takeHeadLot, if_pos hs, hleast]
  rw [henter, changeOfProduct, endAll_eq, hsale, Part.enters_updClock]
  · simp [ready, ClockUnit.ordersLeft, List.any_filter]
  · rfl
  · rfl

/-- Settles O31: each report of the Supply Unit, to a clock in IDLE and in another state. -/
theorem headLotReported : Obligations.HeadLotReported := by
  intro c rest s hpin k taken
  refine ⟨fun h => ?none, fun lot units h => ⟨fun hs => ?closed, fun hs => ?unclosed⟩,
    fun lot t h ht => ⟨fun hs => ?unheard, fun hs => ?ready⟩⟩
  case none => exact takeFromSupply_gives hpin h rfl rfl
  case closed => exact takeFromSupply_gives hpin h rfl (Eq.trans (if_pos hs) (Part.toConsole_eq (p := taken) (t := s.part) rfl _))
  case unclosed => exact takeFromSupply_gives hpin h rfl (if_neg hs)
  case unheard => exact takeFromSupply_gives hpin h rfl (if_neg hs)
  case ready => exact takeFromSupply_gives hpin h rfl (takeHeadLot_idle (p := taken) hs ht)

/-! ### Hall notices (R42, R95, R163) -/

/-- R95: every order ends, told in table order. -/
theorem endForDay_eq (c : ClockId) (p : Part) : endForDay c p =
    (p.updClock c (fun k => { k with orders := [] })).updChannels c (fun h =>
      { h with clockToAccount := h.clockToAccount ++
          (p.clocks.get c).orders.map (fun o => o.ended c .dayClosed o.count o.target none) }) := by
  rw [endForDay, endAll_eq]
  simp only [Part.updClock]
  rw [PerClock.upd_congr p.clocks c _ (fun k => { k with orders := [] })]
  simp only [ClockUnit.mk.injEq, true_and, and_true, List.filter_eq_nil_iff]
  intro o ho
  simp only [Bool.not_eq_true', Bool.not_eq_false, List.any_eq_true]
  exact ⟨o, ho, by simp⟩

/-- R163: the answer to a notice, with the activity as the statements spell it. -/
theorem answerNotice_eq (c : ClockId) (v : HallState) (p : Part) : answerNotice c v p = p.updChannels c (fun h =>
    { h with clockToAccount := h.clockToAccount ++
        [.activity (decide ((p.clocks.get c).state ≠ .idle ∧ (p.clocks.get c).state ≠ .ready)) (some v)] }) := by
  have hactive : ∀ st : ClockState, st.active = decide (st ≠ .idle ∧ st ≠ .ready) := by intro st; cases st <;> rfl
  rw [answerNotice, hactive]
  rfl

/-- Settles O38: each notice becomes the hall view and is answered; a clock in RESTART goes to READY at CLOSING, and the orders end at
CLOSED. -/
theorem hallNoticesTaken : Obligations.HallNoticesTaken := by
  intro c rest s hpin k notice active answered
  let taken : Part := { s.part with channels := s.part.channels.upd c (fun h => { h with accountToClock := rest }) }
  have hviewed : ∀ v, ((setHallView c v taken).clocks.get c) = { k with run := { k.run with hallView := v } } := fun v => by
    simp [setHallView, taken, k]
  have hstays : ∀ v, answerNotice c v (setHallView c v taken) = (answered v [] k.orders).part := fun v => by
    have hclock : s.part.clocks.upd c (fun x => { x with orders := k.orders, run := { x.run with hallView := v } }) =
        s.part.clocks.upd c (fun x => { x with run := { x.run with hallView := v } }) := PerClock.upd_congr _ _ _ _ rfl
    rw [answerNotice_eq, hviewed]
    simp only [answered, State.after, hclock, List.append_nil, setHallView, Part.updRun, Part.updClock, Part.updChannels, taken,
      PerClock.upd_upd]
    rfl
  refine ⟨fun h => takeFromAccount_gives hpin h rfl (hstays .opened), fun h hs => takeFromAccount_gives hpin h rfl ?closing,
    fun h hs => takeFromAccount_gives hpin h rfl ?ready, fun h => takeFromAccount_gives hpin h rfl ?closed⟩
  case closing =>
    have hs' : ((setHallView c .closing taken).clocks.get c).state ≠ .restart := by rw [hviewed]; exact hs
    simp only [noticeClosing]
    exact (congrArg (answerNotice c .closing) (if_neg hs')).trans (hstays .closing)
  case ready =>
    have hs' : ((setHallView c .closing taken).clocks.get c).state = .restart := by rw [hviewed]; exact hs
    simp only [noticeClosing]
    rw [if_pos hs', answerNotice_eq, enterReady_enters c _ _ rfl, hviewed, setHallView, Part.updRun, Part.updClock_enters]
    simp only [Part.enters_get]
    rfl
  case closed =>
    rw [noticeClosed, answerNotice_eq, endForDay_eq, hviewed]
    simp only [setHallView, Part.updRun, Part.updClock, Part.updChannels, PerClock.upd_upd, PerClock.get_upd_self]
    rfl

end Sys2Proof.Machine
end

section
/-! The decision of a clock as equations on the part (R35, R53, R55 to R58, R61): the candidates tried, the end with no award, the window's
end. -/

namespace Sys2Proof.Machine

section
variable {p q : Part} {c : ClockId} {f : ClockUnit → ClockUnit} {id : Nat} {t : Lot} {picks : List Pick}

/-! ### The decision ends with no award (R35, R61) -/

/-- All that a pending hold that applies does. -/
theorem applyHold_enters (c : ClockId) (back : HeldFrom) (p : Part) : applyHold c back p =
    p.enters c { p.clocks.get c with
      state := .held, run := { (p.clocks.get c).run with heldFrom := some back, pendingHold := false } } := by
  rw [applyHold, enterState_enters c .held _ _ rfl, Part.updRun, Part.updClock_enters]
  simp

/-- The end of a decision reads of the Clock Unit what the decision leaves of it. -/
theorem Part.updClock_noAwardMade (h : (f (p.clocks.get c)).endDecision = (p.clocks.get c).endDecision) :
    (p.updClock c f).noAwardMade c id t = p.noAwardMade c id t := by
  have hmade : ∀ q : Part, q.noAwardMade c id t =
      let k := (q.clocks.get c).endDecision
      let back : HeldFrom := if k.run.minPrice = some k.run.price then .floor else .running
      if k.run.pendingWithdrawal then (q.updClock c (fun _ => k)).lotEnds c id t .withdrawn
      else if k.run.pendingHold then
        q.enters c { k with state := .held, run := { k.run with heldFrom := some back, pendingHold := false } }
      else q.enters c { k with state := back.state, strideTimer := some (q.now + k.config.stridePeriod) } := fun _ => rfl
  have hget : ((p.updClock c f).clocks.get c).endDecision = (p.clocks.get c).endDecision := by simpa using h
  rw [hmade, hmade, hget]
  simp only [Part.updClock_enters, Part.updClock_now]
  simp only [Part.updClock, PerClock.upd_upd]

theorem noAward_eq (h : p.OnSale c id t picks) : noAward c p = p.noAwardMade c id t := by
  have hget : ((p.updClock c ClockUnit.endDecision).clocks.get c) = (p.clocks.get c).endDecision := by simp
  have hlot : ((p.updClock c ClockUnit.endDecision).clocks.get c).run.lot = some id := by rw [hget]; exact h.lot
  have hgone : (p.updClock c ClockUnit.endDecision).lotEnds c id t .withdrawn =
      (p.updClock c (fun _ => (p.clocks.get c).endDecision)).lotEnds c id t .withdrawn := Part.updClock_lotEnds .withdrawn rfl
  simp only [noAward, hget]
  rw [lotDone_eq _ hlot h.record, hgone, applyHold_enters, startStride_enters, hget, Part.updClock_enters, Part.updClock_enters]
  unfold Part.noAwardMade RunRecord.atFloor
  by_cases hf : (p.clocks.get c).run.minPrice = some (p.clocks.get c).run.price
  · simp only [hf, ClockUnit.endDecision, decide_true, if_true]
    rfl
  · simp only [hf, ClockUnit.endDecision, decide_false, if_false, Bool.false_eq_true]
    rfl

/-! ### Candidates tried (R56, R57) -/

theorem pickRoom_iff (picks : List Pick) (x : Candidate) : pickRoom picks x.buyer x.point = true ↔ x.HasRoom picks := by
  rw [pickRoom, Bool.or_eq_true, List.any_eq_true, decide_eq_true_eq]
  exact or_congr (by simp) Iff.rfl

theorem Part.tries_nil : p.tries c id t picks [] = p.noAwardMade c id t := by
  have hnone : ∀ h, (p.clocks.get c).refusals c .picksFull [] h = h := ClockUnit.refusals_nil _ _ _
  simp only [Part.tries, List.takeWhile_nil, List.length_nil, List.drop_nil]
  rw [PerClock.upd_eq_self _ _ _ (hnone _)]

/-- A reservation goes out for a candidate with pick room. -/
theorem Part.tries_room {x : Candidate} {rest : List Candidate} (h : x.HasRoom picks) :
    p.tries c id t picks (x :: rest) =
      (p.updClock c (fun k => { k with inFlight := some ((p.clocks.get c).run.priceOf x.position) })).toAccount c
        (.reservation ⟨x.buyer, id, t.product, t.grower, t.cls, t.stems, (p.clocks.get c).run.priceOf x.position, x.quantity,
          (p.clocks.get c).run.run⟩) := by
  have hnone : ∀ h, (p.clocks.get c).refusals c .picksFull [] h = h := ClockUnit.refusals_nil _ _ _
  have htake : (x :: rest).takeWhile (fun x => decide (¬ x.HasRoom picks)) = [] :=
    List.takeWhile_cons_of_neg (by rw [decide_eq_true_eq]; exact not_not.mpr h)
  simp only [Part.tries, htake, List.length_nil, List.drop_zero]
  rw [PerClock.upd_eq_self _ _ _ (hnone _)]
  rfl

/-- One without pick room is refused PICKS_FULL, and the others are tried. -/
theorem Part.tries_full {x : Candidate} {rest : List Candidate} (h : ¬ x.HasRoom picks) :
    p.tries c id t picks (x :: rest) =
      ((p.updChannels c ((p.clocks.get c).refusals c .picksFull [x])).updClock c (fun k => { k with tried := k.tried + 1 })).tries
        c id t picks rest := by
  let k := p.clocks.get c
  have htake : (x :: rest).takeWhile (fun x => decide (¬ x.HasRoom picks)) = x :: rest.takeWhile (fun x => decide (¬ x.HasRoom picks)) :=
    List.takeWhile_cons_of_pos (decide_eq_true h)
  have htold : ∀ xs, p.channels.upd c (k.refusals c .picksFull (x :: xs)) =
      (p.channels.upd c (k.refusals c .picksFull [x])).upd c (k.refusals c .picksFull xs) := by
    intro xs
    rw [PerClock.upd_upd]
    exact PerClock.upd_congr _ _ _ _ (by simp [ClockUnit.refusals])
  simp only [Part.tries, htake, List.length_cons, List.drop_succ_cons, Part.updClock_clocks, Part.updChannels_clocks,
    PerClock.get_upd_self]
  rw [htold]
  cases rest.drop (rest.takeWhile (fun x => decide (¬ x.HasRoom picks))).length with
  | nil =>
    exact (Part.updClock_noAwardMade (p := { p with channels := _ }) (f := fun k => { k with tried := k.tried + 1 }) rfl).symm
  | cons y ys =>
    simp only [PerClock.upd_upd, Part.updClock, Part.updChannels, Nat.add_assoc, Nat.add_comm 1]
    rfl

theorem tryCandidates_eq {xs : List Candidate} (h : p.OnSale c id t picks) : tryCandidates c xs p = p.tries c id t picks xs := by
  induction xs generalizing p with
  | nil => rw [tryCandidates, noAward_eq h, Part.tries_nil]
  | cons x rest ih =>
    rw [tryCandidates, h.picks]
    split
    · next hroom =>
      rw [Part.tries_room ((pickRoom_iff picks x).mp hroom)]
      simp only [sendReservation, Part.reservationFor]
      rw [(h.of_eq (q := p.updClock c _) rfl (by simp)).saleLot, (h.of_eq (q := p.updClock c _) rfl (by simp)).saleId]
      simp
    · next hfull =>
      let tried := p.updClock c (fun k => { k with tried := k.tried + 1 })
      have hrefused : refuseCandidate c none .picksFull tried x =
          (p.updChannels c ((p.clocks.get c).refusals c .picksFull [x])).updClock c (fun k => { k with tried := k.tried + 1 }) := by
        refine (refuseAll_eq [x] tried (by decide)).trans ?_
        simp only [tried, Part.updClock_clocks, PerClock.get_upd_self]
        rfl
      rw [Part.tries_full (fun hroom => hfull ((pickRoom_iff picks x).mpr hroom)), hrefused]
      exact ih (h.of_eq rfl (by simp))

/-! ### The window's end (R53, R55) -/

theorem expireWindow_eq (h : p.OnSale c id t picks) : expireWindow c p = p.decides c id t picks := by
  simp only [expireWindow]
  rw [enterState_enters c .awarding _ _ rfl, Part.updClock_enters, tryCandidates_eq (p := p.enters c _) (h.of_eq rfl (by simp))]
  simp [Part.decides]

/-- A stop window of 0 ms ends in the handling that opens it. -/
theorem expireIfZero_eq (h : p.OnSale c id t picks) : expireIfZero c p =
    if (p.clocks.get c).state = .window ∧ (p.clocks.get c).config.stopWindow = 0 then p.decides c id t picks else p := by
  rw [expireIfZero, expireWindow_eq h]

end

end Sys2Proof.Machine
end

section
/-! A position offered to the standing orders of a descending clock, as one equation on the part (R52, R53, R88 to R90). -/

namespace Sys2Proof.Machine

/-! ### The offer half way -/

/-- R89: whether an order that meets its conditions fires. -/
def Order.fires (o : Order) (t : Lot) (price : Nat) : Bool := o.meets t price && !o.blocked

/-- R89: an order once it has been judged at a price. -/
def Order.judged (o : Order) (t : Lot) (price : Nat) : Order := if o.meets t price then { o with fired := true } else o

/-- R52, R53, R90: a descending Clock Unit once the orders `fs` have fired, its order table being `os`: its window is open, with the
candidates of the first eight. -/
def ClockUnit.firedBy (k : ClockUnit) (t : Lot) (fs os : List Order) (ends : Nat) : ClockUnit :=
  { k with
    state := .window, orders := os, strideTimer := none, windowTimer := some ends,
    candidates := (fs.take 8).zipIdx.map (fun e => e.1.candidate t k.run (k.arrivals + 1 + e.2)),
    arrivals := k.arrivals + (fs.take 8).length }

/-- What the orders that have fired hand over: from the ninth on each is refused behind its report. -/
def ClockUnit.firedTold (k : ClockUnit) (c : ClockId) (t : Lot) (fs : List Order) (h : Channels) : Channels :=
  { h with
    clockToAccount := h.clockToAccount ++ (fs.drop 8).map (fun o => k.refusal c .outbid (o.candidate t k.run 0)),
    clockReports := h.clockReports ++ (fs.take 8).map (fun o => o.report c t k.run) ++
      (fs.drop 8).flatMap (fun o => [o.report c t k.run, k.refusalReport c .outbid none (o.candidate t k.run 0)]) }

theorem Order.judged_number (o : Order) (t : Lot) (price : Nat) : (o.judged t price).number = o.number := by
  unfold Order.judged; split <;> rfl

theorem Order.judged_buyer (o : Order) (t : Lot) (price : Nat) : (o.judged t price).buyer = o.buyer := by
  unfold Order.judged; split <;> rfl

/-- R88: the part once some of the orders have been offered the position: `fs` have fired, and the table is `os`. -/
def Part.fired (p : Part) (c : ClockId) (t : Lot) (fs os : List Order) : Part :=
  let k := p.clocks.get c
  if fs = [] then p.updClock c (fun _ => { k with orders := os })
  else (p.enters c (k.firedBy t fs os (p.now + k.config.stopWindow))).updChannels c (k.firedTold c t fs)

section
variable {p : Part} {c : ClockId} {id : Nat} {t : Lot} {picks : List Pick} {fs os : List Order} {o : Order}

/-- The offer of the statements, as the last of these parts with the end of a window of 0 ms. -/
theorem Part.offers_eq (p : Part) (c : ClockId) (id : Nat) (t : Lot) (picks : List Pick) : p.offers c id t picks =
    let k := p.clocks.get c
    let fs := k.orders.filter (fun o => o.fires t k.run.price)
    let q := p.fired c t fs (k.orders.map (fun o => o.judged t k.run.price))
    if k.run.hallView ≠ .opened then p else if fs ≠ [] ∧ k.config.stopWindow = 0 then q.decides c id t picks else q := by
  refine if_congr Iff.rfl rfl ?_
  by_cases hf : (p.clocks.get c).orders.filter (fun o => o.fires t (p.clocks.get c).run.price) = []
  · refine (if_pos hf).trans ?_
    rw [if_neg (fun h => h.1 hf), Part.fired, if_pos hf]
    rfl
  · refine (if_neg hf).trans ?_
    rw [Part.fired, if_neg hf]
    exact if_congr (iff_and_self.mpr fun _ => hf) rfl rfl

/-! ### What has been offered so far -/

theorem Part.fired_nil (p : Part) (c : ClockId) (t : Lot) : p.fired c t [] (p.clocks.get c).orders = p := by
  simp [Part.fired, Part.updClock, PerClock.upd_eq_self]

/-- The Clock Unit half way, for a clock that had no candidate. -/
theorem Part.fired_get (p : Part) (c : ClockId) (t : Lot) (fs os : List Order) : (p.fired c t fs os).clocks.get c =
    if fs = [] then { p.clocks.get c with orders := os }
    else (p.clocks.get c).firedBy t fs os (p.now + (p.clocks.get c).config.stopWindow) := by
  unfold Part.fired
  simp only
  split <;> simp

theorem Part.fired_run : ((p.fired c t fs os).clocks.get c).run = (p.clocks.get c).run := by
  rw [Part.fired_get]; split <;> rfl
theorem Part.fired_config : ((p.fired c t fs os).clocks.get c).config = (p.clocks.get c).config := by
  rw [Part.fired_get]; split <;> rfl
theorem Part.fired_orders : ((p.fired c t fs os).clocks.get c).orders = os := by
  rw [Part.fired_get]; split <;> rfl
theorem Part.fired_supply : (p.fired c t fs os).supply = p.supply := by
  unfold Part.fired; simp only; split <;> rfl

theorem Part.fired_candidates (hx : (p.clocks.get c).candidates = []) : ((p.fired c t fs os).clocks.get c).candidates =
    (fs.take 8).zipIdx.map (fun e => e.1.candidate t (p.clocks.get c).run ((p.clocks.get c).arrivals + 1 + e.2)) := by
  rw [Part.fired_get]
  split
  · next hf => rw [hf]; exact hx
  · rfl

theorem Part.OnSale.fired (h : p.OnSale c id t picks) : (p.fired c t fs os).OnSale c id t picks :=
  h.of_eq Part.fired_supply (by rw [Part.fired_run])

/-- The order table may be written behind what has been handed over. -/
theorem Part.fired_updOrders (g : List Order → List Order) :
    (p.fired c t fs os).updClock c (fun k => { k with orders := g k.orders }) = p.fired c t fs (g os) := by
  unfold Part.fired
  simp only
  split
  · simp [Part.updClock]
  · exact congrArg (fun q : Part => q.updChannels c _)
      (Part.enters_updClock p c (f := fun k => { k with orders := g k.orders }) _ rfl rfl)

/-! ### One order -/

/-- A candidate at the position of the others has its place behind them. -/
theorem insertCandidate_last {x : Candidate} {ys : List Candidate} (h : ∀ y ∈ ys, y.position ≤ x.position) :
    insertCandidate x ys = ys ++ [x] := by
  induction ys with
  | nil => rfl
  | cons y rest ih =>
    rw [insertCandidate, if_neg (Nat.not_lt.mpr (h y List.mem_cons_self)), ih fun z hz => h z (List.mem_cons_of_mem _ hz)]
    rfl

/-- The Clock Unit once one more order has fired, up to the eighth: its candidate has a place behind the others. -/
theorem ClockUnit.firedBy_room (k : ClockUnit) (t : Lot) (fs os : List Order) (o : Order) (ends : Nat) (hl : fs.length < 8) :
    (k.firedBy t fs os ends).enter (o.candidate t k.run 0) = k.firedBy t (fs ++ [o]) os ends := by
  have hfs : fs.take 8 = fs := List.take_of_length_le (by omega)
  have hall : (fs ++ [o]).take 8 = fs ++ [o] := List.take_of_length_le (by simp; omega)
  have hlast : ∀ x ∈ (fs.zipIdx.map (fun e => e.1.candidate t k.run (k.arrivals + 1 + e.2))),
      x.position ≤ k.run.position := by
    intro x hx
    obtain ⟨e, -, rfl⟩ := List.mem_map.mp hx
    exact le_rfl
  simp only [ClockUnit.enter, ClockUnit.firedBy, hfs, hall]
  rw [insertCandidate_last hlast]
  simp [List.zipIdx_append, Order.candidate, Nat.add_assoc, Nat.add_comm 1]

/-- Up to the eighth an order that fires hands over its report alone. -/
theorem ClockUnit.firedTold_room (k : ClockUnit) (c : ClockId) (t : Lot) (fs : List Order) (o : Order) (hl : fs.length < 8)
    (h : Channels) : k.firedTold c t (fs ++ [o]) h =
      { k.firedTold c t fs h with clockReports := (k.firedTold c t fs h).clockReports ++ [o.report c t k.run] } := by
  have hfs : fs.take 8 = fs := List.take_of_length_le (by omega)
  have hall : (fs ++ [o]).take 8 = fs ++ [o] := List.take_of_length_le (by simp; omega)
  have hd : fs.drop 8 = [] := List.drop_eq_nil_of_le (by omega)
  have hdall : (fs ++ [o]).drop 8 = [] := List.drop_eq_nil_of_le (by simp; omega)
  simp [ClockUnit.firedTold, hfs, hall, hd, hdall]

/-- From the ninth on it changes nothing of the Clock Unit. -/
theorem ClockUnit.firedBy_late (k : ClockUnit) (t : Lot) (fs os : List Order) (o : Order) (ends : Nat) (hl : 8 ≤ fs.length) :
    k.firedBy t (fs ++ [o]) os ends = k.firedBy t fs os ends := by
  simp only [ClockUnit.firedBy, List.take_append_of_le_length hl]

/-- From the ninth on it hands over the refusal of its candidate too. -/
theorem ClockUnit.firedTold_late (k : ClockUnit) (c : ClockId) (t : Lot) (fs : List Order) (o : Order) (hl : 8 ≤ fs.length)
    (h : Channels) : k.firedTold c t (fs ++ [o]) h =
      { k.firedTold c t fs h with
        clockToAccount := (k.firedTold c t fs h).clockToAccount ++ [k.refusal c .outbid (o.candidate t k.run 0)]
        clockReports := (k.firedTold c t fs h).clockReports ++
          [o.report c t k.run, k.refusalReport c .outbid none (o.candidate t k.run 0)] } := by
  simp [ClockUnit.firedTold, List.take_append_of_le_length hl, List.drop_append_of_le_length hl]

/-- The first order that fires opens the window. -/
theorem enterCandidate_first (hs : (p.clocks.get c).state = .running ∨ (p.clocks.get c).state = .floor)
    (hx : (p.clocks.get c).candidates = []) :
    enterCandidate c (o.candidate t (p.clocks.get c).run 0) ((p.fired c t [] os).clockReport c (o.report c t (p.clocks.get c).run)) =
      p.fired c t [o] os := by
  have hnil : p.fired c t [] os = p.updClock c (fun _ => { p.clocks.get c with orders := os }) := by simp [Part.fired]
  have hget : ((p.fired c t [] os).clocks.get c) = { p.clocks.get c with orders := os } := Part.fired_get p c t [] os
  have hroom : (((p.fired c t [] os).clockReport c (o.report c t (p.clocks.get c).run)).clocks.get c).candidates.length <
      Config.maxCandidates := by
    simp [hget, hx, Config.maxCandidates]
  rw [enterCandidate, if_pos hroom, enterWithRoom]
  rw [if_pos (by simpa [hget] using hs), openWindow, enterState_enters c .window _ _ rfl, Part.updClock_enters, Part.updClock_enters,
    Part.clockReport_enters, hnil, Part.updClock_enters]
  simp only [Part.updClock_clocks, Part.updClock_now, Part.clockReport_clocks, Part.clockReport_now, PerClock.get_upd_self,
    ClockUnit.enter, hx]
  have htold : (p.clocks.get c).firedTold c t [o] =
      fun h => { h with clockReports := h.clockReports ++ [o.report c t (p.clocks.get c).run] } :=
    funext fun h => by simp [ClockUnit.firedTold]
  simp [Part.fired, Part.clockReport, ClockUnit.firedBy, htold, insertCandidate, Order.candidate]

/-- Up to the eighth each is entered behind the others. -/
theorem enterCandidate_room (hf : fs ≠ []) (hl : fs.length < 8) :
    enterCandidate c (o.candidate t (p.clocks.get c).run 0) ((p.fired c t fs os).clockReport c (o.report c t (p.clocks.get c).run)) =
      p.fired c t (fs ++ [o]) os := by
  have hget : (((p.fired c t fs os).clockReport c (o.report c t (p.clocks.get c).run)).clocks.get c) =
      (p.clocks.get c).firedBy t fs os (p.now + (p.clocks.get c).config.stopWindow) := by
    rw [Part.clockReport_clocks, Part.fired_get, if_neg hf]
  have hroom : (((p.fired c t fs os).clockReport c (o.report c t (p.clocks.get c).run)).clocks.get c).candidates.length <
      Config.maxCandidates := by
    rw [hget]
    simp [ClockUnit.firedBy, Config.maxCandidates]
    omega
  rw [enterCandidate, if_pos hroom, enterWithRoom]
  rw [if_neg (by rw [hget]; simp [ClockUnit.firedBy])]
  have hboth : fs ++ [o] ≠ [] := by simp
  let k := p.clocks.get c
  let ends := p.now + k.config.stopWindow
  calc
    _ = (((p.enters c (k.firedBy t fs os ends)).updClock c (fun x => x.enter (o.candidate t k.run 0))).updChannels c (fun h =>
          { k.firedTold c t fs h with clockReports := (k.firedTold c t fs h).clockReports ++ [o.report c t k.run] })) := by
      simp only [Part.fired, if_neg hf, Part.clockReport, Part.updChannels, Part.updClock, PerClock.upd_upd]
      rfl
    _ = (p.enters c (k.firedBy t (fs ++ [o]) os ends)).updChannels c (k.firedTold c t (fs ++ [o])) := by
      rw [Part.enters_updClock _ _ _ rfl rfl, ClockUnit.firedBy_room k t fs os o ends hl]
      exact congrArg _ (funext fun h => (ClockUnit.firedTold_room k c t fs o hl h).symm)
    _ = p.fired c t (fs ++ [o]) os := by rw [Part.fired, if_neg hboth]

/-- From the ninth on each is refused. -/
theorem enterCandidate_late (hl : 8 ≤ fs.length) (hx : (p.clocks.get c).candidates = []) :
    enterCandidate c (o.candidate t (p.clocks.get c).run 0) ((p.fired c t fs os).clockReport c (o.report c t (p.clocks.get c).run)) =
      p.fired c t (fs ++ [o]) os := by
  have hf : fs ≠ [] := by rintro rfl; simp at hl
  have hboth : fs ++ [o] ≠ [] := by simp
  have hcands := Part.fired_candidates (t := t) (fs := fs) (os := os) hx
  have hlength : ((p.fired c t fs os).clocks.get c).candidates.length = 8 := by
    rw [hcands]
    simp [hl]
  have hlast : ∀ x ∈ ((p.fired c t fs os).clocks.get c).candidates, x.position = (p.clocks.get c).run.position := by
    rw [hcands]
    intro x hx
    obtain ⟨e, -, rfl⟩ := List.mem_map.mp hx
    rfl
  rw [enterCandidate, Part.clockReport_clocks, if_neg (by rw [hlength]; decide), enterFull, Part.clockReport_clocks]
  cases hg : ((p.fired c t fs os).clocks.get c).candidates.getLast? with
  | none =>
    rw [List.getLast?_eq_none_iff.mp hg] at hlength
    cases hlength
  | some last =>
    have hpos : ¬ (o.candidate t (p.clocks.get c).run 0).position < last.position := by
      rw [hlast last (List.mem_of_getLast? hg)]
      exact lt_irrefl _
    simp only [if_neg hpos]
    rw [refuseCandidate_eq none _ _ (by decide), Part.clockReport_clocks, Part.fired_get, if_neg hf]
    let k := p.clocks.get c
    let q := p.enters c (k.firedBy t fs os (p.now + k.config.stopWindow))
    calc
      _ = q.updChannels c (fun h => { k.firedTold c t fs h with
            clockToAccount := (k.firedTold c t fs h).clockToAccount ++ [k.refusal c .outbid (o.candidate t k.run 0)],
            clockReports := (k.firedTold c t fs h).clockReports ++ [o.report c t k.run] ++
              [k.refusalReport c .outbid none (o.candidate t k.run 0)] }) := by
        simp only [Part.fired, if_neg hf, Part.clockReport, Part.updChannels, PerClock.upd_upd]
        rfl
      _ = q.updChannels c (k.firedTold c t (fs ++ [o])) :=
        congrArg _ (funext fun h => by rw [ClockUnit.firedTold_late k c t fs o hl, List.append_assoc]; rfl)
      _ = p.fired c t (fs ++ [o]) os := by rw [Part.fired, if_neg hboth, ClockUnit.firedBy_late _ _ _ _ _ _ hl]

/-- An order that fires enters the window. -/
theorem enterCandidate_fired (hs : (p.clocks.get c).state = .running ∨ (p.clocks.get c).state = .floor)
    (hx : (p.clocks.get c).candidates = []) :
    enterCandidate c (o.candidate t (p.clocks.get c).run 0) ((p.fired c t fs os).clockReport c (o.report c t (p.clocks.get c).run)) =
      p.fired c t (fs ++ [o]) os := by
  by_cases hf : fs = []
  · subst hf
    exact enterCandidate_first hs hx
  · rcases Nat.lt_or_ge fs.length 8 with hl | hl
    · exact enterCandidate_room hf hl
    · exact enterCandidate_late hl hx

/-! ### The orders in turn (R88, R89) -/

/-- What the Clock Unit judges of an order, by the lot on sale. -/
theorem Part.orderMatches_eq (h : p.OnSale c id t picks) (o : Order) : p.orderMatches c o = o.meets t (p.clocks.get c).run.price := by
  rw [Part.orderMatches, h.saleLot, Order.meets]

variable {pre post : List Order}

/-- No other order of a table has the number of one. -/
theorem number_ne_of_nodup (hn : ((pre ++ o :: post).map Order.number).Nodup) :
    (∀ x ∈ pre, x.number ≠ o.number) ∧ (∀ x ∈ post, x.number ≠ o.number) := by
  rw [List.map_append, List.map_cons, List.nodup_middle, List.nodup_cons] at hn
  obtain ⟨hne, -⟩ := hn
  simp only [List.mem_append, List.mem_map, not_or, not_exists, not_and] at hne
  exact hne

/-- The order of a number, where the numbers are distinct. -/
theorem find_number_of_nodup (hn : ((pre ++ o :: post).map Order.number).Nodup) :
    (pre ++ o :: post).find? (fun x => decide (x.number = o.number)) = some o := by
  obtain ⟨hpre, -⟩ := number_ne_of_nodup hn
  have hnone : pre.find? (fun x => decide (x.number = o.number)) = none :=
    List.find?_eq_none.mpr fun x hx => fun he => hpre x hx (of_decide_eq_true he)
  simp [List.find?_append, hnone]

/-- Its fired mark set leaves the others. -/
theorem map_fired_of_nodup (hn : ((pre ++ o :: post).map Order.number).Nodup) :
    (pre ++ o :: post).map (fun x => if x.number = o.number then { x with fired := true } else x) =
      pre ++ { o with fired := true } :: post := by
  obtain ⟨hpre, hpost⟩ := number_ne_of_nodup hn
  have hkept : ∀ xs : List Order, (∀ x ∈ xs, x.number ≠ o.number) →
      xs.map (fun x => if x.number = o.number then { x with fired := true } else x) = xs := fun xs hxs =>
    (List.map_congr_left fun x hx => if_neg (hxs x hx)).trans (List.map_id xs)
  rw [List.map_append, List.map_cons, hkept pre hpre, hkept post hpost, if_pos rfl]

/-- The buyers and numbers of a table are distinct: the order judged is the one of its number, and its buyer has no candidate yet. -/
theorem offerOrder_fired (h : p.OnSale c id t picks) (hv : (p.clocks.get c).run.hallView = .opened)
    (hx : (p.clocks.get c).candidates = []) (hs : (p.clocks.get c).state = .running ∨ (p.clocks.get c).state = .floor)
    (hn : ((pre ++ o :: post).map Order.number).Nodup) (hb : ∀ x ∈ fs, x.buyer ≠ o.buyer) :
    offerOrder c (p.fired c t fs (pre ++ o :: post)) o.number =
      p.fired c t (if o.fires t (p.clocks.get c).run.price then fs ++ [o] else fs)
        (pre ++ o.judged t (p.clocks.get c).run.price :: post) := by
  let q := p.fired c t fs (pre ++ o :: post)
  have hrun : (q.clocks.get c).run = (p.clocks.get c).run := Part.fired_run
  have hsale : q.OnSale c id t picks := h.fired
  have hfind : (q.clocks.get c).orderNumbered o.number = some o := by
    rw [ClockUnit.orderNumbered, Part.fired_orders]
    exact find_number_of_nodup hn
  have hnone : ((q.clocks.get c).candidateOf o.buyer) = none := by
    rw [ClockUnit.candidateOf, List.find?_eq_none, Part.fired_candidates hx]
    intro x hx
    obtain ⟨⟨y, i⟩, hy, rfl⟩ := List.mem_map.mp hx
    have hmem : y ∈ fs := List.mem_of_mem_take (List.fst_mem_of_mem_zipIdx hy)
    exact fun he => hb y hmem (of_decide_eq_true he)
  have hmark : markFired c o.number q = p.fired c t fs (pre ++ { o with fired := true } :: post) := by
    rw [← map_fired_of_nodup hn]
    exact Part.fired_updOrders _
  unfold offerOrder
  simp only [show (p.fired c t fs (pre ++ o :: post)) = q from rfl, hfind]
  rw [if_neg (by rw [hrun, hv]; decide), Part.orderMatches_eq hsale, hrun]
  by_cases hm : o.meets t (p.clocks.get c).run.price = true
  · have hj : o.judged t (p.clocks.get c).run.price = { o with fired := true } := if_pos hm
    rw [if_neg (by simp [hm]), if_neg (by simp [hnone]), hj]
    by_cases hbl : o.blocked = true
    · rw [if_pos hbl, hmark, if_neg (by simp [Order.fires, hbl])]
    · have hfires : o.fires t (p.clocks.get c).run.price = true := by simp [Order.fires, hm, hbl]
      rw [if_neg hbl, if_pos hfires, ← enterCandidate_fired hs hx, fireOrder, hmark, Part.orderCandidate, Part.orderReport, hsale.saleLot,
        hrun]
      rfl
  · have hj : o.judged t (p.clocks.get c).run.price = o := if_neg hm
    rw [if_pos (by simp [hm]), hj, if_neg (by simp [Order.fires, hm])]

/-- The orders offered one after another. -/
theorem foldl_offerOrder (h : p.OnSale c id t picks) (hv : (p.clocks.get c).run.hallView = .opened)
    (hx : (p.clocks.get c).candidates = []) (hs : (p.clocks.get c).state = .running ∨ (p.clocks.get c).state = .floor)
    (hn : ((pre ++ post).map Order.number).Nodup) (hb : ((pre ++ post).map Order.buyer).Nodup)
    (hfs : ∀ x ∈ fs, x.buyer ∈ pre.map Order.buyer) :
    (post.map Order.number).foldl (offerOrder c) (p.fired c t fs (pre ++ post)) =
      p.fired c t (fs ++ post.filter (fun o => o.fires t (p.clocks.get c).run.price))
        (pre ++ post.map (fun o => o.judged t (p.clocks.get c).run.price)) := by
  induction post generalizing pre fs with
  | nil => simp
  | cons o rest ih =>
    let j := o.judged t (p.clocks.get c).run.price
    have hjn : j.number = o.number := o.judged_number t _
    have hjb : j.buyer = o.buyer := o.judged_buyer t _
    have hne : ∀ x ∈ fs, x.buyer ≠ o.buyer := by
      rw [List.map_append, List.map_cons, List.nodup_middle, List.nodup_cons] at hb
      obtain ⟨hne, -⟩ := hb
      exact fun x hx he => hne (List.mem_append_left _ (he ▸ hfs x hx))
    have hnext := ih (pre := pre ++ [j]) (fs := if o.fires t (p.clocks.get c).run.price then fs ++ [o] else fs)
      (by simpa [hjn] using hn) (by simpa [hjb] using hb) (by
        intro x hx
        rw [List.map_append, List.mem_append]
        split at hx
        · rcases List.mem_append.mp hx with hx | hx
          · exact Or.inl (hfs x hx)
          · exact Or.inr (by simp_all)
        · exact Or.inl (hfs x hx))
    rw [List.map_cons, List.foldl_cons, offerOrder_fired h hv hx hs hn hne]
    rw [List.append_assoc] at hnext
    refine hnext.trans ?_
    rw [List.filter_cons, List.map_cons, List.append_assoc]
    split
    · rw [List.append_assoc]; rfl
    · rfl

/-- R88: a position offered to the orders of a clock that descends. -/
theorem offerPosition_eq (h : p.OnSale c id t picks) (hx : (p.clocks.get c).candidates = [])
    (hs : (p.clocks.get c).state = .running ∨ (p.clocks.get c).state = .floor)
    (ho : OrdersFit (p.clocks.get c).orders (p.clocks.get c).nextOrder) : offerPosition c p = p.offers c id t picks := by
  have hw : (p.clocks.get c).state ≠ .window := by rcases hs with hs | hs <;> rw [hs] <;> decide
  rw [Part.offers_eq]
  simp only
  split
  · next hv => exact offerPosition_passed (fun o _ => Or.inl hv) hw
  · next hv =>
    have hfold := foldl_offerOrder (pre := []) (fs := []) (post := (p.clocks.get c).orders) h (not_not.mp hv) hx hs ho.numbers ho.buyers
      (by simp)
    rw [List.nil_append, Part.fired_nil] at hfold
    rw [offerPosition, hfold, List.nil_append, List.nil_append, expireIfZero_eq h.fired, Part.fired_config]
    refine if_congr (and_congr_left' ?_) rfl rfl
    rw [Part.fired_get]
    split
    · next hf => exact ⟨fun hst => absurd hst hw, fun hne => absurd hf hne⟩
    · next hf => exact ⟨fun _ => hf, fun _ => rfl⟩

end

end Sys2Proof.Machine
end

section
/-! The end of a stride (O34). -/

namespace Sys2Proof.Machine

/-- R32, R33: a run record at the next position. -/
def RunRecord.strode (r : RunRecord) (price dwell : Nat) : RunRecord :=
  { r with position := r.position + 1, price := price, dwell := dwell }

/-- R32, R33: a Clock Unit once a stride has ended at a time, in the state it goes on in. -/
def ClockUnit.strode (k : ClockUnit) (st : ClockState) (price dwell now : Nat) : ClockUnit :=
  { k with state := st, strideTimer := some (now + k.config.stridePeriod), run := k.run.strode price dwell }

section
variable {p : Part} {c : ClockId} {id : Nat} {t : Lot} {picks : List Pick} {st : ClockState} {price dwell : Nat}
  {f : RunRecord → RunRecord}

theorem Part.strides_eq (p : Part) (c : ClockId) (st : ClockState) (price dwell : Nat) : p.strides c st price dwell =
    let k := (p.clocks.get c).strode st price dwell p.now
    let q := if st = (p.clocks.get c).state then p.updClock c (fun _ => k) else p.enters c k
    q.toDisplay c (.stride (q.report c)) := rfl

theorem Part.strides_get (p : Part) (c : ClockId) (st : ClockState) (price dwell : Nat) :
    (p.strides c st price dwell).clocks.get c = (p.clocks.get c).strode st price dwell p.now := by
  rw [Part.strides_eq]
  simp only
  split <;> simp

theorem Part.strides_supply (p : Part) (c : ClockId) (st : ClockState) (price dwell : Nat) :
    (p.strides c st price dwell).supply = p.supply := by
  rw [Part.strides_eq]
  simp only
  split <;> rfl

/-- The position that a stride reaches is offered. -/
theorem offerPosition_strides (h : p.OnSale c id t picks) (hx : (p.clocks.get c).candidates = []) (hst : st = .running ∨ st = .floor)
    (ho : OrdersFit (p.clocks.get c).orders (p.clocks.get c).nextOrder) :
    offerPosition c (p.strides c st price dwell) = (p.strides c st price dwell).offers c id t picks := by
  have hsale : (p.strides c st price dwell).OnSale c id t picks :=
    h.of_eq (Part.strides_supply ..) (by rw [Part.strides_get]; rfl)
  exact offerPosition_eq hsale (by rw [Part.strides_get]; exact hx) (by rw [Part.strides_get]; exact hst)
    (by rw [Part.strides_get]; exact ho)

/-- A stride that stays in the state. -/
theorem strideGoesOn_stays (hf : f (p.clocks.get c).run = (p.clocks.get c).run.strode price dwell) :
    strideGoesOn c (p.updRun c f) = offerPosition c (p.strides c (p.clocks.get c).state price dwell) := by
  have hclock : startStride c (p.updRun c f) =
      p.updClock c (fun _ => (p.clocks.get c).strode (p.clocks.get c).state price dwell p.now) := by
    simp only [startStride, Part.updRun, Part.updClock, PerClock.upd_upd]
    refine congrArg (fun v => { p with clocks := v }) (PerClock.upd_congr _ _ _ _ ?_)
    simp only [hf]
    rfl
  rw [strideGoesOn, hclock, Part.strides_eq]
  simp only [if_true]

/-- A stride that enters another state. -/
theorem strideGoesOn_enters (hst : st ≠ (p.clocks.get c).state) (hf : f (p.clocks.get c).run = (p.clocks.get c).run.strode price dwell) :
    strideGoesOn c (enterState c st (p.updRun c f)) = offerPosition c (p.strides c st price dwell) := by
  let k : ClockUnit := { p.clocks.get c with state := st, run := (p.clocks.get c).run.strode price dwell }
  have henter : enterState c st (p.updRun c f) = p.enters c k := by
    rw [enterState_enters c st _ k (by simp [k, hf]), Part.updRun, Part.updClock_enters]
  have hclock : startStride c (p.enters c k) = p.enters c ((p.clocks.get c).strode st price dwell p.now) :=
    Part.enters_updClock (f := fun k => { k with strideTimer := some (p.now + k.config.stridePeriod) }) p c k rfl rfl
  rw [strideGoesOn, henter, hclock, Part.strides_eq]
  simp only [if_neg hst]

/-- At the position limit the lot is closed unsold. -/
theorem strideRunning_limit (h : (p.clocks.get c).run.position + 1 = 65535) : strideRunning c p = lotDone c .closedUnsold p := by
  rw [strideRunning]
  exact if_pos h

/-- In RUNNING the price descends, and FLOOR is entered at the minimum price. -/
theorem strideRunning_eq (hs : (p.clocks.get c).state = .running) (h : (p.clocks.get c).run.position + 1 ≠ 65535) :
    let price := (p.clocks.get c).run.priceOf ((p.clocks.get c).run.position + 1)
    strideRunning c p =
      offerPosition c (p.strides c (if (p.clocks.get c).run.minPrice = some price then .floor else .running) price 0) := by
  intro price
  refine Eq.trans (if_neg h) ?_
  split
  · exact strideGoesOn_enters (by rw [hs]; decide) rfl
  · exact (strideGoesOn_stays rfl).trans (by rw [hs])

/-- At the position limit, or at the end of the dwell, the lot is closed unsold. -/
theorem strideFloor_limit (h : (p.clocks.get c).run.position + 1 = 65535 ∨
      (p.clocks.get c).config.floorDwell ≤ (p.clocks.get c).run.dwell + 1) : strideFloor c p = lotDone c .closedUnsold p := by
  rw [strideFloor]
  exact if_pos h

/-- In FLOOR the price stays. -/
theorem strideFloor_eq (hs : (p.clocks.get c).state = .floor) (h : (p.clocks.get c).run.position + 1 ≠ 65535)
    (hd : (p.clocks.get c).run.dwell + 1 < (p.clocks.get c).config.floorDwell) :
    strideFloor c p = offerPosition c (p.strides c .floor (p.clocks.get c).run.price ((p.clocks.get c).run.dwell + 1)) := by
  refine Eq.trans (if_neg (not_or.mpr ⟨h, Nat.not_le.mpr hd⟩)) ?_
  rw [← hs]
  exact strideGoesOn_stays rfl

end

/-- Settles O34: by the state, a lot closed unsold at the limit, or a stride whose position is offered. -/
theorem strideEnds : Obligations.StrideEnds := by
  intro c id n w t tr s hpin k hok htimer hlot ht hn htr reached next price ended descends
  have hsale : reached.OnSale c id t tr.picks := ⟨hlot, ht, Part.slotPicks_eq hn htr⟩
  have hfits := hok.soon.fits
  have hstep : ∀ q, strideStep c s.part = q → exec (.strideEnd c) s = .next (s.after q) := fun _ hq =>
    (run_high hpin _).trans (by rw [hq]; rfl)
  have hrunning : k.state = .running → strideStep c s.part = strideRunning c reached := fun hs => by
    simp only [strideStep, show (s.part.clocks.get c).strideTimer = some w from htimer, show (s.part.clocks.get c).state = _ from hs]
    rfl
  have hfloor : k.state = .floor → strideStep c s.part = strideFloor c reached := fun hs => by
    simp only [strideStep, show (s.part.clocks.get c).strideTimer = some w from htimer, show (s.part.clocks.get c).state = _ from hs]
    rfl
  have hclosed : lotDone c .closedUnsold reached = reached.lotEnds c id t .closedUnsold := lotDone_eq _ hsale.lot hsale.record
  have hoffered : k.state = .running ∨ k.state = .floor → ∀ st price dwell, st = .running ∨ st = .floor →
      offerPosition c (reached.strides c st price dwell) = (reached.strides c st price dwell).offers c id t tr.picks :=
    fun hs st price dwell hst =>
      offerPosition_strides hsale (hfits.noList (by rcases hs with hs | hs <;> rw [hs] <;> rfl)) hst hfits.orders
  refine ⟨fun hs hl => hstep _ ?_, fun hs hl => hstep _ ?_, fun hs hl => hstep _ ?_, fun hs hl hd => hstep _ ?_⟩
  · rw [hrunning hs, strideRunning_limit (p := reached) hl, hclosed]
  · rw [hrunning hs, strideRunning_eq (p := reached) hs hl]
    exact hoffered (Or.inl hs) _ _ _ (by split <;> simp)
  · rw [hfloor hs, strideFloor_limit (p := reached) hl, hclosed]
  · rw [hfloor hs, strideFloor_eq (p := reached) hs hl hd]
    exact hoffered (Or.inr hs) _ _ _ (Or.inr rfl)

end Sys2Proof.Machine
end

section
/-! A run that starts, at START and at the end of the restart delay (O33). -/

namespace Sys2Proof.Machine

/-! ### The start price (R30) -/

/-- The start price of the model is that of the statements. -/
theorem startPriceOf_eq {t : Lot} {restart given : Option Nat} {start : Nat} (h : StartPriceIs t restart given start) :
    startPriceOf t.suggested t.minPrice t.ceiling restart given = start := by
  obtain ⟨hsuggested, hgiven, hraised, hrestart, hclamped⟩ := h
  unfold startPriceOf
  cases htop : t.ceiling with
  | none =>
    cases given with
    | none => exact (hsuggested htop rfl).symm
    | some g =>
      rcases Nat.lt_or_ge g t.minPrice with hlt | hge
      · rw [hraised g htop rfl hlt]; exact max_eq_right hlt.le
      · rw [hgiven g htop rfl hge]; exact max_eq_left hge
  | some top =>
    cases given with
    | none => rw [hrestart top htop rfl]; rfl
    | some g =>
      obtain ⟨hbelow, hwithin, habove⟩ := hclamped top g htop rfl
      rcases Nat.lt_or_ge g t.minPrice with hlt | hge
      · rw [hbelow hlt]; simp only [max_eq_right hlt.le]
      · simp only [max_eq_left hge]
        rcases Nat.lt_or_ge top g with hlt | hle
        · rw [habove hge hlt]; exact min_eq_right hlt.le
        · rw [hwithin hge hle]; exact min_eq_left hle

/-- A restart price is the start price of a lot with a ceiling. -/
theorem startPriceIs_restart {t : Lot} {start : Nat} (h : t.ceiling.isSome = true) : StartPriceIs t (some start) none start := by
  have hsome : t.ceiling ≠ none := Option.isSome_iff_ne_none.mp h
  exact ⟨fun hn => absurd hn hsome, fun _ hn => absurd hn hsome, fun _ hn => absurd hn hsome, fun _ _ _ => rfl,
    fun _ _ _ hg => by cases hg⟩

/-! ### The records of a run start (R26, R30, R36, R73) -/

/-- R26, R30, R36: a Clock Unit once a run has started at a price. -/
def ClockUnit.starts (k : ClockUnit) (start now : Nat) : ClockUnit :=
  { k with
    state := if k.run.minPrice = some start then .floor else .running, restartTimer := none,
    strideTimer := some (now + k.config.stridePeriod), orders := k.orders.map (fun o => { o with fired := false }),
    run := k.run.started start k.config.priceStep }

theorem Lot.started_eq (start : Nat) : (fun t : Lot => t.started start) =
    fun t => if t.ceiling = none then { t with ceiling := some start, state := .selling } else t := by
  funext t
  cases h : t.ceiling <;> simp [Lot.started, h]

theorem Part.runStarts_eq (p : Part) (c : ClockId) (id start : Nat) : p.runStarts c id start =
    (p.updLot id (fun t => t.started start)).enters c ((p.clocks.get c).starts start p.now) := by
  rw [Lot.started_eq]
  rfl

section
variable {p : Part} {c : ClockId} {id start : Nat} {t : Lot} {picks : List Pick}

/-- Of the lot the offer reads nothing that a run start writes. -/
theorem Part.offers_started : p.offers c id (t.started start) picks = p.offers c id t picks := by
  unfold Lot.started
  split <;> rfl

/-- The lot stays on sale. -/
theorem Part.OnSale.runStarts (h : p.OnSale c id t picks) : (p.runStarts c id start).OnSale c id (t.started start) picks := by
  refine ⟨?lot, ?record, ?picks⟩
  case lot =>
    rw [Part.runStarts_eq, Part.enters_get]
    exact h.lot
  case record =>
    have hfind := Table.find_modify_self p.supply.lots id (fun t => t.started start)
    rw [show Table.find p.supply.lots id = some t from h.record] at hfind
    rw [Part.runStarts_eq]
    exact hfind
  case picks => exact h.picks

/-- The offer of position 0. -/
theorem offerPosition_runStarts (h : p.OnSale c id t picks) (hx : (p.clocks.get c).candidates = [])
    (ho : OrdersFit (p.clocks.get c).orders (p.clocks.get c).nextOrder) :
    offerPosition c (p.runStarts c id start) = (p.runStarts c id start).offers c id t picks := by
  have hget : (p.runStarts c id start).clocks.get c = (p.clocks.get c).starts start p.now := by
    rw [Part.runStarts_eq, Part.enters_get]
  rw [← Part.offers_started (start := start)]
  refine offerPosition_eq h.runStarts (by rw [hget]; exact hx) ?_ (by rw [hget]; exact ho.map fun _ => rfl)
  rw [hget, ClockUnit.starts]
  split <;> simp

/-! ### All that a run start does -/

/-- A run starts, its announcement being made on the links alone. -/
theorem startRun_eq {announce : OutBody → Part → Part} {differs : Bool} {links : PerLink Link} (h : p.OnSale c id t picks)
    (hm : (p.clocks.get c).run.minPrice.isSome = true) (hx : (p.clocks.get c).candidates = [])
    (ho : OrdersFit (p.clocks.get c).orders (p.clocks.get c).nextOrder)
    (ha : ∀ q : Part, q.links = p.links → announce
      (.runStarted c (next16 (p.clocks.get c).run.run) id start differs ((p.clocks.get c).starts start p.now).state) q =
        { q with links := links }) :
    startRun c start announce differs p =
      (({ p with links := links } : Part).runStarts c id start).offers c id t picks := by
  have hstate : startState start ((p.clocks.get c).run.minPrice.getD 0) = ((p.clocks.get c).starts start p.now).state := by
    obtain ⟨m, hm⟩ := Option.isSome_iff_exists.mp hm
    simp [startState, ClockUnit.starts, hm, eq_comm]
  let q := p.updLot id (fun t => t.started start)
  let k := (p.clocks.get c).starts start p.now
  let recorded := q.updClock c (fun _ => { k with state := (p.clocks.get c).state })
  have hrecorded : (startStride c (q.updClock c (fun k => { k with
      run := k.run.started start k.config.priceStep, restartTimer := none }))).updClock c ClockUnit.clearFired = recorded := by
    simp only [startStride, Part.updClock, PerClock.upd_upd]
    rw [PerClock.upd_congr q.clocks c _ (fun _ => { k with state := (p.clocks.get c).state }) rfl]
    rfl
  have hrun : (recorded.clocks.get c).run.run = next16 (p.clocks.get c).run.run := by
    simp [recorded, k, ClockUnit.starts, RunRecord.started]
  have hsale : recorded.saleId c = id := by simp [Part.saleId, recorded, k, ClockUnit.starts, RunRecord.started, h.lot]
  rw [← offerPosition_runStarts (p := { p with links := links }) (h.of_eq rfl rfl) hx ho, Part.runStarts_eq]
  simp only [startRun, h.saleId, hstate]
  rw [hrecorded, hrun, hsale, ha recorded rfl, enterState_enters c k.state _ k (by simp [recorded, k])]
  exact congrArg (offerPosition c) (Part.updClock_enters { q with links := links } c _ k)

end

section
variable {p : Part} {c : ClockId} {l : LinkId} {m : Message}

/-! ### START refused (R31, R174) -/

theorem takeStart_malformed (h : 9999999 < fieldAt m.body 0 4) : takeStart l m c p = p.refuseMsg l m .malformed := if_pos h

theorem takeStart_idle (h : fieldAt m.body 0 4 ≤ 9999999) (hs : (p.clocks.get c).state = .idle) :
    takeStart l m c p = p.refuseMsg l m .noLot := by
  refine Eq.trans (if_neg (Nat.not_lt.mpr h)) ?_
  rw [hs]

theorem takeStart_busy (h : fieldAt m.body 0 4 ≤ 9999999) (hi : (p.clocks.get c).state ≠ .idle) (hr : (p.clocks.get c).state ≠ .ready)
    (hd : (p.clocks.get c).state ≠ .restart) : takeStart l m c p = p.refuseMsg l m .busy := by
  refine Eq.trans (if_neg (Nat.not_lt.mpr h)) ?_
  cases hs : (p.clocks.get c).state with
  | idle => exact absurd hs hi
  | ready => exact absurd hs hr
  | restart => exact absurd hs hd
  | _ => rfl

theorem takeStart_closed (h : fieldAt m.body 0 4 ≤ 9999999) (hs : (p.clocks.get c).state = .ready)
    (hv : (p.clocks.get c).run.hallView ≠ .opened) : takeStart l m c p = p.refuseMsg l m .hallClosed := by
  refine Eq.trans (if_neg (Nat.not_lt.mpr h)) ?_
  rw [hs]
  exact if_neg hv

theorem takeStart_starts (h : fieldAt m.body 0 4 ≤ 9999999)
    (hs : ((p.clocks.get c).state = .ready ∧ (p.clocks.get c).run.hallView = .opened) ∨ (p.clocks.get c).state = .restart) :
    takeStart l m c p = startByConsole l m c p := by
  refine Eq.trans (if_neg (Nat.not_lt.mpr h)) ?_
  rcases hs with ⟨hs, hv⟩ | hs
  · rw [hs]
    exact if_pos hv
  · rw [hs]

end

/-- Settles O33: the refusals by the clock state; a run that starts, at START answered and at the delay's end announced, and its position
0 offered. -/
theorem runStarts : Obligations.RunStarts := by
  intro c id n t tr s k number started
  have hcalm : k.Ok → k.state = .ready ∨ k.state = .restart → k.run.minPrice.isSome = true ∧ k.candidates = [] := fun hok hs => by
    have hfits := hok.soon.fits
    rcases hs with hs | hs <;> exact ⟨hfits.least.trans (by rw [hs]; rfl), hfits.noList (by rw [hs]; rfl)⟩
  refine ⟨fun l raw h => ⟨fun hp => h.consoleRefused (takeStart_malformed hp), ?taken⟩,
    fun w start hpin hok hs htimer hlot ht hn htr hceil hprice => ?delay⟩
  case taken =>
    intro hp given
    refine ⟨fun hs => h.consoleRefused ?idle, fun hs => h.consoleRefused ?busy, fun hs hv => h.consoleRefused ?closed,
      fun start hok hs hlot ht hn htr hprice => h.consoleGives ?starts⟩
    case idle => exact takeStart_idle (p := s.part.taking l) hp hs
    case busy =>
      have hother : k.state ≠ .idle ∧ k.state ≠ .ready ∧ k.state ≠ .restart := by
        rcases hs with hs | hs | hs | hs | hs <;> simp [hs]
      obtain ⟨hi, hr, hd⟩ := hother
      exact takeStart_busy (p := s.part.taking l) hp hi hr hd
    case closed => exact takeStart_closed (p := s.part.taking l) hp hs hv
    case starts =>
      obtain ⟨hm, hx⟩ := hcalm hok (hs.imp_left And.left)
      have hsale : (s.part.taking l).OnSale c id t tr.picks := ⟨hlot, ht, Part.slotPicks_eq hn htr⟩
      have hstart : (s.part.taking l).startPrice c given = start := by
        rw [Part.startPrice, hsale.saleLot]
        exact startPriceOf_eq hprice
      rw [takeStart_starts (p := s.part.taking l) hp hs, startByConsole, show optOfZero _ = given from rfl, hstart]
      exact startRun_eq hsale hm hx hok.soon.fits.orders fun q hq => Part.reply_taken h.up hq (parse raw) _
  case delay =>
    obtain ⟨hm, hx⟩ := hcalm hok (Or.inr hs)
    let reached := s.part.reach w
    have hsale : reached.OnSale c id t tr.picks := ⟨hlot, ht, Part.slotPicks_eq hn htr⟩
    have hstart : reached.startPrice c none = start := by
      rw [Part.startPrice, hsale.saleLot]
      refine startPriceOf_eq ?_
      rw [show (reached.clocks.get c).run.restartPrice = some start from hprice]
      exact startPriceIs_restart hceil
    have hstep : restartStep c s.part = startRun c start (fun b q => q.toConsole c b) false reached := by
      simp only [restartStep, show (s.part.clocks.get c).restartTimer = some w from htimer]
      rw [if_pos (show (s.part.clocks.get c).state = _ from hs)]
      exact congrArg (fun x => startRun c x _ false reached) hstart
    refine (run_high hpin _).trans ?_
    have htold : ∀ (b : OutBody) (q : Part), q.links = reached.links →
        q.toConsole c b = { q with links := s.part.consoleTold s.part.links c [b] } := fun b q hq => by
      have hlinks : q.links = s.part.links := hq
      rw [Part.toConsole_eq (t := s.part) (Part.linkOf_congr (fun _ => by simp [hlinks]) _), hlinks]
    rw [hstep, startRun_eq hsale hm hx hok.soon.fits.orders (htold _)]
    rfl

end Sys2Proof.Machine
end

section
/-! A BID at the Account Unit (O39). -/

namespace Sys2Proof.Machine

section
variable {p q : Part} {l : LinkId} {c : ClockId} {m : Message} {b : BidIn} {i buyer : Nat} {r : Buyer}

/-! ### Check 1: the format (R43) -/

theorem bidOk_iff (m : Message) : bidOk m = true ↔
    let b := readBid m.body
    b.desk ≤ 1023 ∧ b.run ≠ 0 ∧ b.quantity ≤ 9999 ∧ (m.repeats.isSome = true → m.limit.isSome = true) := by
  have hrepeats : (m.repeats.isNone || m.limit.isSome) = true ↔ (m.repeats.isSome = true → m.limit.isSome = true) := by
    cases m.repeats <;> simp
  simp only [bidOk, Bool.and_eq_true, decide_eq_true_eq, hrepeats, and_assoc]

theorem takeBid_malformed (h : bidOk m = false) : takeBid l m p = refuseMalformedBid l m p :=
  if_neg (by simp [h])

theorem takeBid_formed (hv : m.verdict .bid = true) (hb : bidOk m = true) (hc : p.clockFor l m = some c) :
    takeBid l m p = checkDesk ⟨l, c, m, readBid m.body⟩ p := by
  refine (if_pos (by rw [hv, hb]; rfl)).trans ?_
  rw [hc]

/-- R43: the clock of a bid is the one that it names, or else the default clock of its link. -/
theorem Part.clockFor_eq {g : DeskGroup} (hg : p.account.groups.get l = some g)
    (h : m.clock = some (clockNumber c) ∨ (m.clock = none ∧ g.defaultClock = c)) : p.clockFor l m = some c := by
  rcases h with h | ⟨h, hd⟩
  · simp [Part.clockFor, h]
  · simp [Part.clockFor, h, hg, hd]

/-! ### Checks 2 to 4: the hall and the desk (R44, R110) -/

theorem checkDesk_closed (h : p.account.hall.state ≠ .opened) : checkDesk b p = refuseBid b 0 .hallClosed p := if_pos h

theorem checkDesk_unmapped (h : p.account.hall.state = .opened) (hd : p.hallDesk b.link b.body.desk = none) :
    checkDesk b p = refuseBid b 0 .unmappedDesk p := by
  refine (if_neg (not_not.mpr h)).trans ?_
  rw [hd]

theorem checkDesk_unbound (h : p.account.hall.state = .opened) (hd : p.hallDesk b.link b.body.desk = some i)
    (hi : p.account.desks.find i = none) : checkDesk b p = refuseBid b 0 .notLoggedIn p := by
  refine (if_neg (not_not.mpr h)).trans ?_
  simp only [hd, hi]

theorem checkDesk_bound {d : Binding} (h : p.account.hall.state = .opened) (hd : p.hallDesk b.link b.body.desk = some i)
    (hi : p.account.desks.find i = some d) : checkDesk b p = checkBuyer b d.buyer (refreshDesk i p) := by
  refine (if_neg (not_not.mpr h)).trans ?_
  simp only [hd, hi]

/-! ### Checks 5 and 6: the buyer (R44), and the hand-over (R44, R85) -/

theorem checkBuyer_blocked (h : p.buyer buyer = some r) (hr : r.blocked = true) :
    checkBuyer b buyer p = refuseBid b buyer .blocked p := by
  simp [checkBuyer, h, hr]

theorem checkBuyer_notMember (h : p.buyer buyer = some r) (hr : r.blocked = false) (hm : r.members.get b.clock = false) :
    checkBuyer b buyer p = refuseBid b buyer .notMember p := by
  simp [checkBuyer, h, hr, hm]

theorem checkBuyer_bid (h : p.buyer buyer = some r) (hr : r.blocked = false) (hm : r.members.get b.clock = true)
    (hl : b.msg.limit = none) : checkBuyer b buyer p = handBid b buyer r p := by
  simp [checkBuyer, h, hr, hm, BidIn.isPlacement, hl]

theorem checkBuyer_placement {limit : Nat} (h : p.buyer buyer = some r) (hr : r.blocked = false)
    (hm : r.members.get b.clock = true) (hl : b.msg.limit = some limit) : checkBuyer b buyer p = handPlacement b buyer r p := by
  simp [checkBuyer, h, hr, hm, BidIn.isPlacement, hl]

/-! ### A bid refused at intake (R44, R169) -/

/-- An ordinary bid was pressed. -/
theorem BidIn.origin_pressed (h : b.msg.limit = none) : b.origin = .pressed :=
  if_neg (by simp [BidIn.isPlacement, h])

/-- All that the refusal of the bid just taken does. -/
theorem refuseBid_taken (hu : (p.links.get b.link).state = .up) (hq : q.links = p.unqueued b.link) (buyer : Nat) (cause : Cause) :
    refuseBid b buyer cause q = { q with
      links := p.answeredBy b.link ⟨b.msg.tag, .bidRefused (some b.body.desk)
        ⟨some b.clock, some b.body.run, cause, some b.origin, none⟩⟩,
      accountReports := q.accountReports ++ [b.report buyer cause] } := by
  rw [refuseBid, Part.reply_taken hu hq]
  rfl

end

/-- Settles O39: the format, then the hall, the desk and the buyer in turn, and the hand-over to the Clock Unit. -/
theorem bidIntake : Obligations.BidIntake := by
  intro l raw g c s h hg m b formed a refreshed target refused handed
  have hgives : ∀ {q}, takeBid l m (s.part.taking l) = q → exec (.bid l) s = .next (s.after q) := fun hq => hq ▸ h.run_take _
  refine ⟨fun hn => ?malformed, fun hf hc => ?formed⟩
  case malformed =>
    have hbad : bidOk m = false := Bool.eq_false_iff.mpr fun hok => hn ((bidOk_iff m).mp hok)
    exact hgives ((takeBid_malformed hbad).trans (Part.reply_taken h.up rfl _ _))
  case formed =>
    let bid : BidIn := ⟨l, c, m, b⟩
    have hv : m.verdict .bid = true := by
      obtain ⟨-, -, -, -, -, -, hv, -⟩ := h
      exact hv
    have hcheck : takeBid l m (s.part.taking l) = checkDesk bid (s.part.taking l) :=
      takeBid_formed hv ((bidOk_iff m).mpr hf) (Part.clockFor_eq (p := s.part.taking l) hg hc)
    have hdesk : (s.part.taking l).hallDesk l b.desk = localToHall g.map b.desk := by
      simp only [Part.hallDesk]
      rw [show (s.part.taking l).account.groups.get l = some g from hg]
    have hrefused : ∀ {a' cause buyer}, checkDesk bid (s.part.taking l) =
        refuseBid bid buyer cause { s.part.taking l with account := a' } → refused a' cause buyer := fun {a' cause buyer} hcause =>
      ⟨bid.origin, fun hl => BidIn.origin_pressed hl, hgives (hcheck.trans (hcause.trans (refuseBid_taken (b := bid) h.up rfl _ _)))⟩
    refine ⟨fun ho => hrefused (checkDesk_closed ho), fun ho hd => hrefused (checkDesk_unmapped ho (hdesk.trans hd)),
      fun i ho hd => ⟨fun hi => hrefused (checkDesk_unbound ho (hdesk.trans hd) hi), fun d r hi hr => ?bound⟩⟩
    case bound =>
      have hbound : checkDesk bid (s.part.taking l) = checkBuyer bid d.buyer (refreshDesk i (s.part.taking l)) :=
        checkDesk_bound ho (hdesk.trans hd) hi
      have hrecord : (refreshDesk i (s.part.taking l)).buyer d.buyer = some r := hr
      refine ⟨fun hb => hrefused (hbound.trans (checkBuyer_blocked hrecord hb)),
        fun hb hm => hrefused (hbound.trans (checkBuyer_notMember hrecord hb hm)),
        fun hb hm => ⟨fun hl => hgives (hcheck.trans (hbound.trans (checkBuyer_bid hrecord hb hm hl))),
          fun limit hl => hgives ?placement⟩⟩
      case placement =>
        rw [hcheck, hbound, checkBuyer_placement hrecord hb hm hl, handPlacement]
        simp only [show bid.msg.limit = some limit from hl]
        rfl

end Sys2Proof.Machine
end

section
/-! An admitted bid at the Clock Unit: checks 7 and 8 and the first candidate of a window (O40), and a candidate in the list of an open
window (O41). -/

namespace Sys2Proof.Machine

section
variable {p : Part} {c : ClockId} {b : BidHandover} {id : Nat} {t : Lot} {picks : List Pick} {x : Candidate} {ys : List Candidate}

/-! ### Checks 7 and 8 (R45) -/

/-- A bid refused at checks 7 and 8 is told to its desk and to the mirror. -/
theorem refuseAdmitted_eq (c : ClockId) (b : BidHandover) (cause : Cause) (p : Part) : refuseAdmitted c b cause p =
    p.updChannels c (fun h => { h with
      clockToAccount := h.clockToAccount ++
        [.outcome b.buyer b.tag (.refused ⟨some c, some b.run, cause, some .pressed, none⟩)],
      clockReports := h.clockReports ++
        [.bid ⟨c, b.buyer, some b.target, b.run, some .pressed, b.pressed, b.asked, some cause, none⟩] }) := by
  simp only [refuseAdmitted, Part.toAccount, Part.clockReport, Part.updChannels, PerClock.upd_upd]
  rfl

theorem takeAdmittedBid_wrongRun (h : b.run ≠ (p.clocks.get c).run.run) : takeAdmittedBid c b p = refuseAdmitted c b .wrongRun p :=
  if_pos h

theorem takeAdmittedBid_late (h : b.run = (p.clocks.get c).run.run)
    (hs : (p.clocks.get c).state = .awarding ∨ (p.clocks.get c).state = .restart ∨ (p.clocks.get c).state = .held) :
    takeAdmittedBid c b p = refuseAdmitted c b .late p := by
  refine (if_neg (not_not.mpr h)).trans ?_
  rcases hs with hs | hs | hs <;> rw [hs]

theorem takeAdmittedBid_notRunning (h : b.run = (p.clocks.get c).run.run)
    (hs : (p.clocks.get c).state = .idle ∨ (p.clocks.get c).state = .ready) :
    takeAdmittedBid c b p = refuseAdmitted c b .notRunning p := by
  refine (if_neg (not_not.mpr h)).trans ?_
  rcases hs with hs | hs <;> rw [hs]

theorem takeAdmittedBid_admits (h : b.run = (p.clocks.get c).run.run)
    (hs : (p.clocks.get c).state = .running ∨ (p.clocks.get c).state = .floor ∨ (p.clocks.get c).state = .window) :
    takeAdmittedBid c b p = admitBid c b p := by
  refine (if_neg (not_not.mpr h)).trans ?_
  rcases hs with hs | hs | hs <;> rw [hs]

/-! ### The bid as a candidate (R47, R48) -/

/-- R47, R48: the candidate that an admitted bid becomes, as it is entered with an arrival number. -/
def BidHandover.candidate (b : BidHandover) (k : ClockUnit) (t : Lot) (arrival : Nat) : Candidate :=
  { buyer := b.buyer, point := b.point, origin := .pressed b.target b.tag,
    position := clampPosition k.run.position k.config.lagLimit b.pressed, asked := b.asked,
    quantity := clampQuantity t.minPurchase t.remaining b.asked, arrival := arrival }

/-- R45, R169: the report of an admitted bid. -/
def BidHandover.admitted (b : BidHandover) (c : ClockId) (k : ClockUnit) (t : Lot) : Report :=
  .bid ⟨c, b.buyer, some b.target, b.run, some .pressed, b.pressed, b.asked, none,
        some ⟨k.run.position, clampPosition k.run.position k.config.lagLimit b.pressed,
              clampQuantity t.minPurchase t.remaining b.asked⟩⟩

theorem Part.pressedCandidate_eq (h : p.OnSale c id t picks) (b : BidHandover) :
    p.pressedCandidate c b = b.candidate (p.clocks.get c) t 0 := by
  rw [Part.pressedCandidate, h.saleLot]
  rfl

/-- A bid admitted is reported, and entered as its buyer stands in the list. -/
theorem admitBid_new (h : p.OnSale c id t picks) (hb : ∀ y ∈ (p.clocks.get c).candidates, y.buyer ≠ b.buyer) :
    admitBid c b p = expireIfZero c
      (enterCandidate c (b.candidate (p.clocks.get c) t 0) (p.clockReport c (b.admitted c (p.clocks.get c) t))) := by
  have hnone : (p.clocks.get c).candidateOf b.buyer = none :=
    List.find?_eq_none.mpr fun y hy he => hb y hy (of_decide_eq_true he)
  simp only [admitBid, Part.pressedCandidate_eq h, Part.clockReport_clocks, hnone]
  rfl

theorem admitBid_again {held : Candidate} (h : p.OnSale c id t picks)
    (hb : (p.clocks.get c).candidates.find? (fun y => decide (y.buyer = b.buyer)) = some held) :
    admitBid c b p = expireIfZero c
      (enterAgain c (b.candidate (p.clocks.get c) t 0) held (p.clockReport c (b.admitted c (p.clocks.get c) t))) := by
  have hsome : (p.clocks.get c).candidateOf b.buyer = some held := hb
  simp only [admitBid, Part.pressedCandidate_eq h, Part.clockReport_clocks, hsome]
  rfl

/-! ### A place in the list (R49, R50) -/

/-- R49: a candidate stands behind those of a lower or equal position and before the others. -/
theorem insertCandidate_splits (x : Candidate) (ys : List Candidate) : ∃ pre post, ys = pre ++ post ∧
    (∀ y ∈ pre, y.position ≤ x.position) ∧ (∀ y, post.head? = some y → x.position < y.position) ∧
    insertCandidate x ys = pre ++ x :: post := by
  induction ys with
  | nil => exact ⟨[], [], rfl, by simp, by simp, rfl⟩
  | cons y rest ih =>
    rw [insertCandidate]
    split
    · next hlt => exact ⟨[], y :: rest, rfl, by simp, by simpa using hlt, rfl⟩
    · next hge =>
      obtain ⟨pre, post, hys, hpre, hpost, hins⟩ := ih
      refine ⟨y :: pre, post, by rw [hys]; rfl, ?_, hpost, by rw [hins]; rfl⟩
      exact List.forall_mem_cons.mpr ⟨Nat.not_lt.mp hge, hpre⟩

/-- R53: an open window of more than 0 ms goes on. -/
theorem expireIfZero_open (h : (p.clocks.get c).config.stopWindow ≠ 0) : expireIfZero c p = p :=
  if_neg fun h0 => h h0.2

/-- R50: the first candidate of a descending run opens the window. -/
theorem enterCandidate_opens (hs : (p.clocks.get c).state = .running ∨ (p.clocks.get c).state = .floor)
    (hx : (p.clocks.get c).candidates = []) : enterCandidate c x p =
      let k := p.clocks.get c
      p.enters c { k with
        state := .window, strideTimer := none, windowTimer := some (p.now + k.config.stopWindow),
        candidates := [{ x with arrival := k.arrivals + 1 }], arrivals := k.arrivals + 1 } := by
  rw [enterCandidate, if_pos (by rw [hx]; decide), enterWithRoom]
  refine (if_pos hs).trans ?_
  rw [openWindow, enterState_enters c .window _ _ rfl, Part.updClock_enters, Part.updClock_enters]
  simp [ClockUnit.enter, hx, insertCandidate]

/-- R53: the window that a bid opens, nothing being handed over beside the change of state. -/
theorem Part.opensWindow_silent (k : ClockUnit) : p.opensWindow c id t picks k (fun h => h) =
    let q := p.enters c { k with
      state := .window, strideTimer := none, windowTimer := some (p.now + k.config.stopWindow) }
    if k.config.stopWindow = 0 then q.decides c id t picks else q := by
  simp only [Part.opensWindow, PerClock.upd_eq_self]

/-- The first candidate of a descending run, admitted: the window opens, and one of 0 ms is decided at once. -/
theorem admitBid_opens (h : p.OnSale c id t picks) (hs : (p.clocks.get c).state = .running ∨ (p.clocks.get c).state = .floor)
    (hx : (p.clocks.get c).candidates = []) : admitBid c b p =
      let k := p.clocks.get c
      (p.clockReport c (b.admitted c k t)).opensWindow c id t picks
        { k with candidates := [b.candidate k t (k.arrivals + 1)], arrivals := k.arrivals + 1 } (fun h => h) := by
  let k := p.clocks.get c
  let q := p.clockReport c (b.admitted c k t)
  let opened : ClockUnit := { k with
    state := .window, strideTimer := none, windowTimer := some (p.now + k.config.stopWindow),
    candidates := [b.candidate k t (k.arrivals + 1)], arrivals := k.arrivals + 1 }
  have henter : enterCandidate c (b.candidate k t 0) q = q.enters c opened := enterCandidate_opens (p := q) hs hx
  have hsale : (q.enters c opened).OnSale c id t picks := h.of_eq rfl (by rw [Part.enters_get])
  rw [admitBid_new h (by rw [hx]; simp), henter, expireIfZero_eq hsale, Part.enters_get, Part.opensWindow_silent]
  exact if_congr (and_iff_right rfl) rfl rfl

end

/-- Settles O40: the bid is refused by its run number or the clock state, or is the first candidate and opens the window. -/
theorem bidJudgedByClock : Obligations.BidJudgedByClock := by
  intro c b rest s hpin h k report refused
  let p : Part := { s.part with channels := s.part.channels.upd c (fun h => { h with accountToClock := rest }) }
  have hrefused : ∀ {cause}, takeAdmittedBid c b p = refuseAdmitted c b cause p → refused cause := fun hr =>
    takeFromAccount_gives hpin h rfl (by
      refine hr.trans ?_
      rw [refuseAdmitted_eq]
      simp only [Part.updChannels, p, PerClock.upd_upd]
      rfl)
  refine ⟨fun hr => hrefused (takeAdmittedBid_wrongRun hr), fun hr hs => hrefused (takeAdmittedBid_late hr hs),
    fun hr hs => hrefused (takeAdmittedBid_notRunning hr hs), ?opens⟩
  intro id n t tr hr hs hok hlot ht hn htr x taken
  have hsale : p.OnSale c id t tr.picks := ⟨hlot, ht, Part.slotPicks_eq (p := p) hn htr⟩
  have hnil : k.candidates = [] := hok.soon.fits.noList (by rcases hs with hs | hs <;> rw [hs] <;> rfl)
  have htaken : p.clockReport c (b.admitted c k t) = taken := by
    simp only [Part.clockReport, Part.updChannels, p, PerClock.upd_upd]
    rfl
  refine takeFromAccount_gives hpin h rfl ((takeAdmittedBid_admits (p := p) hr (hs.imp_right Or.inl)).trans ?_)
  rw [admitBid_opens hsale hs hnil, ← htaken]
  rfl

/-! ### The list of an open window (R49 to R52) -/

section
variable {p : Part} {c : ClockId} {x held last : Candidate}

/-- R50: a list with room admits the candidate of a new buyer. -/
theorem enterCandidate_joins (hs : (p.clocks.get c).state = .window) (hl : (p.clocks.get c).candidates.length < 8) :
    enterCandidate c x p = p.updClock c (fun k => k.enter x) := by
  rw [enterCandidate, if_pos (by exact hl)]
  exact if_neg (by simp [hs])

/-- R52: a full list admits one that orders before its last, which is refused. -/
theorem enterCandidate_displaces (hl : (p.clocks.get c).candidates.length = 8) (hlast : (p.clocks.get c).candidates.getLast? = some last)
    (hx : x.position < last.position) : enterCandidate c x p =
      (p.updClock c (fun k => ({ k with candidates := k.candidates.dropLast } : ClockUnit).enter x)).updChannels c
        ((p.clocks.get c).refusals c .outbid [last]) := by
  rw [enterCandidate, if_neg (by rw [hl]; decide), enterFull, hlast]
  refine (if_pos hx).trans ((refuseAll_eq [last] _ (by decide)).trans ?_)
  rw [Part.updClock_clocks, PerClock.get_upd_self]
  rfl

/-- R52: any other is refused. -/
theorem enterCandidate_outbid (hl : (p.clocks.get c).candidates.length = 8) (hlast : (p.clocks.get c).candidates.getLast? = some last)
    (hx : last.position ≤ x.position) :
    enterCandidate c x p = p.updChannels c ((p.clocks.get c).refusals c .outbid [x]) := by
  rw [enterCandidate, if_neg (by rw [hl]; decide), enterFull, hlast]
  exact (if_neg (Nat.not_lt.mpr hx)).trans (refuseAll_eq [x] p (by decide))

/-- R51: a buyer's candidate is replaced from a lower position. -/
theorem enterAgain_replaces (hx : x.position < held.position) : enterAgain c x held p =
    p.updClock c (fun k => ({ k with candidates := k.candidates.filter (fun y => decide (y.buyer ≠ x.buyer)) } : ClockUnit).enter x) :=
  if_pos hx

/-- R51: from an equal or a higher position the new one is refused. -/
theorem enterAgain_duplicate (hx : held.position ≤ x.position) :
    enterAgain c x held p = p.updChannels c ((p.clocks.get c).refusals c .duplicate [x]) :=
  (if_neg (Nat.not_lt.mpr hx)).trans (refuseAll_eq [x] p (by decide))

end

/-- Settles O41: by the buyer's own candidate, the room of the list and the positions. -/
theorem candidateEntered : Obligations.CandidateEntered := by
  intro c b rest id t s hpin h k hr hs hok hlot ht x report told stays placed
  let p : Part := { s.part with channels := s.part.channels.upd c (fun h => { h with accountToClock := rest }) }
  let q : Part := p.clockReport c (b.admitted c k t)
  let y : Candidate := b.candidate k t 0
  have hsale : p.OnSale c id t (p.slotPicks c) := ⟨hlot, ht, rfl⟩
  have htold : q.channels = s.part.channels.upd c told := by
    simp only [q, Part.clockReport, Part.updChannels, p, PerClock.upd_upd]
    rfl
  have hgives : ∀ {r : Part}, admitBid c b p = expireIfZero c r → (r.clocks.get c).config = k.config →
      exec (.admittedBid c) s = .next (s.after r) := fun hadmit hc =>
    takeFromAccount_gives hpin h rfl ((takeAdmittedBid_admits (p := p) hr (Or.inr (Or.inr hs))).trans
      (hadmit.trans (expireIfZero_open (by rw [hc]; exact (ClockUnit.ok_iff.mp hok).2 hs))))
  have hstays : ∀ cause, admitBid c b p = expireIfZero c (q.updChannels c (k.refusals c cause [y])) → stays y cause :=
    fun cause hadmit => by
      refine (hgives hadmit rfl).trans ?_
      simp only [Part.updChannels, htold, PerClock.upd_upd]
      rfl
  have hplaced : ∀ (f : List Candidate → List Candidate) refused,
      admitBid c b p = expireIfZero c ((q.updClock c (fun a => ({ a with candidates := f a.candidates } : ClockUnit).enter y)).updChannels c
        (k.refusals c .outbid refused)) → placed (f k.candidates) refused := fun f refused hadmit => by
    obtain ⟨pre, post, hf, hpre, hpost, hins⟩ := insertCandidate_splits x (f k.candidates)
    refine ⟨pre, post, hf, hpre, hpost, (hgives hadmit (by simp [q, p, ClockUnit.enter, k])).trans ?_⟩
    have hclocks : q.clocks.upd c (fun a => ({ a with candidates := f a.candidates } : ClockUnit).enter y) =
        s.part.clocks.upd c (fun k => { k with candidates := pre ++ x :: post, arrivals := k.arrivals + 1 }) :=
      PerClock.upd_congr _ _ _ _ (by rw [← hins]; rfl)
    simp only [Part.updClock, Part.updChannels, hclocks, htold, PerClock.upd_upd]
    rfl
  have hnone : ∀ r : Part, r.updChannels c (k.refusals c .outbid []) = r := fun r => by
    rw [Part.updChannels, PerClock.upd_eq_self _ _ _ (ClockUnit.refusals_nil _ _ _ _)]
  refine ⟨fun hnew => ?new, fun held hheld => ?again⟩
  case new =>
    have hentered : ∀ {r}, enterCandidate c y q = r → admitBid c b p = expireIfZero c r := fun hentry =>
      (admitBid_new hsale hnew).trans (congrArg _ hentry)
    refine ⟨fun hl => hplaced (fun xs => xs) [] ?joins,
      fun last hl hlast => ⟨fun hx => hplaced List.dropLast [last] ?displaces, fun hx => hstays .outbid ?outbid⟩⟩
    case joins => exact hentered ((enterCandidate_joins (p := q) hs hl).trans (hnone _).symm)
    case displaces => exact hentered (enterCandidate_displaces (p := q) hl hlast hx)
    case outbid => exact hentered (enterCandidate_outbid (p := q) hl hlast hx)
  case again =>
    have hentered : ∀ {r}, enterAgain c y held q = r → admitBid c b p = expireIfZero c r := fun hentry =>
      (admitBid_again hsale hheld).trans (congrArg _ hentry)
    refine ⟨fun hx => hplaced (List.filter (fun y => decide (y.buyer ≠ b.buyer))) [] ?replaces,
      fun hx => hstays .duplicate ?duplicate⟩
    case replaces => exact hentered ((enterAgain_replaces (p := q) hx).trans (hnone _).symm)
    case duplicate => exact hentered (enterAgain_duplicate (p := q) hx)

end Sys2Proof.Machine
end

section
/-! The candidates of a decision tried to its end, and the end of the window (O42). -/

namespace Sys2Proof.Machine

section
variable {p : Part} {c : ClockId} {id : Nat} {t : Lot} {picks : List Pick} {pre post xs : List Candidate} {x : Candidate}

/-! ### The candidates of a decision in turn (R56, R57) -/

/-- Candidates refused in two parts. -/
theorem ClockUnit.refusals_append (k : ClockUnit) (c : ClockId) (cause : Cause) (xs ys : List Candidate) (h : Channels) :
    k.refusals c cause (xs ++ ys) h = k.refusals c cause ys (k.refusals c cause xs h) := by
  simp [ClockUnit.refusals]

/-- Candidates without pick room are refused one after another before the others are tried. -/
theorem Part.tries_append (h : ∀ y ∈ pre, ¬ y.HasRoom picks) : p.tries c id t picks (pre ++ xs) =
    ((p.updChannels c ((p.clocks.get c).refusals c .picksFull pre)).updClock c (fun k => { k with tried := k.tried + pre.length })).tries
      c id t picks xs := by
  induction pre generalizing p with
  | nil =>
    have hnone : ∀ h, (p.clocks.get c).refusals c .picksFull [] h = h := ClockUnit.refusals_nil _ _ _
    simp only [Part.updClock, Part.updChannels, List.length_nil, Nat.add_zero, PerClock.upd_eq_self _ _ _ (hnone _),
      PerClock.upd_eq_self, List.nil_append]
  | cons y rest ih =>
    obtain ⟨hy, hrest⟩ := List.forall_mem_cons.mp h
    rw [List.cons_append, Part.tries_full hy, ih hrest]
    simp only [Part.updClock, Part.updChannels, PerClock.upd_upd, PerClock.get_upd_self, List.length_cons, Nat.add_assoc, Nat.add_comm 1]
    congr 2
    exact PerClock.upd_congr _ _ _ _ (ClockUnit.refusals_append _ c .picksFull [y] rest _).symm

/-- The first candidate with pick room: those before it are refused, and its reservation goes out. -/
theorem Part.tries_first (h : ∀ y ∈ pre, ¬ y.HasRoom picks) (hx : x.HasRoom picks) :
    p.tries c id t picks (pre ++ x :: post) =
      let k := p.clocks.get c
      let price := k.run.priceOf x.position
      { p with
        clocks := p.clocks.upd c (fun k => { k with tried := k.tried + pre.length, inFlight := some price }),
        channels := (p.channels.upd c (k.refusals c .picksFull pre)).upd c (fun h => { h with clockToAccount := h.clockToAccount ++
          [.reservation ⟨x.buyer, id, t.product, t.grower, t.cls, t.stems, price, x.quantity, k.run.run⟩] }) } := by
  rw [Part.tries_append h, Part.tries_room hx]
  simp [Part.updClock, Part.toAccount, Part.updChannels]

/-- With no pick room for any candidate the decision ends. -/
theorem Part.tries_none (h : ∀ y ∈ xs, ¬ y.HasRoom picks) : p.tries c id t picks xs =
    (p.updChannels c ((p.clocks.get c).refusals c .picksFull xs)).noAwardMade c id t := by
  have happend := Part.tries_append (p := p) (c := c) (id := id) (t := t) (xs := []) h
  rw [List.append_nil, Part.tries_nil] at happend
  exact happend.trans (Part.updClock_noAwardMade rfl)

/-! ### The three ends of a decision with no award (R35, R61) -/

theorem Part.noAwardMade_withdrawn (h : (p.clocks.get c).run.pendingWithdrawal = true) : p.noAwardMade c id t =
    (p.updClock c ClockUnit.endDecision).lotEnds c id t .withdrawn := by
  refine (if_pos h).trans ?_
  exact Part.updClock_lotEnds (f := fun _ => (p.clocks.get c).endDecision) .withdrawn rfl

theorem Part.noAwardMade_held (hw : (p.clocks.get c).run.pendingWithdrawal = false) (hh : (p.clocks.get c).run.pendingHold = true) :
    p.noAwardMade c id t =
      let k := (p.clocks.get c).endDecision
      p.enters c { k with
        state := .held,
        run := { k.run with
          heldFrom := some (if k.run.minPrice = some k.run.price then .floor else .running), pendingHold := false } } :=
  (if_neg (ne_true_of_eq_false hw)).trans (if_pos hh)

theorem Part.noAwardMade_descends (hw : (p.clocks.get c).run.pendingWithdrawal = false)
    (hh : (p.clocks.get c).run.pendingHold = false) : p.noAwardMade c id t =
      let k := (p.clocks.get c).endDecision
      p.enters c { k with
        state := if k.run.minPrice = some k.run.price then .floor else .running,
        strideTimer := some (p.now + k.config.stridePeriod) } := by
  refine (if_neg (ne_true_of_eq_false hw)).trans ((if_neg (ne_true_of_eq_false hh)).trans ?_)
  rw [apply_ite HeldFrom.state]
  rfl

theorem Part.tries_held (h : ∀ y ∈ xs, ¬ y.HasRoom picks) (hw : (p.clocks.get c).run.pendingWithdrawal = false)
    (hh : (p.clocks.get c).run.pendingHold = true) : p.tries c id t picks xs =
      let k := (p.clocks.get c).endDecision
      (p.updChannels c ((p.clocks.get c).refusals c .picksFull xs)).enters c { k with
        state := .held,
        run := { k.run with
          heldFrom := some (if k.run.minPrice = some k.run.price then .floor else .running), pendingHold := false } } :=
  (Part.tries_none h).trans (Part.noAwardMade_held hw hh)

theorem Part.tries_descends (h : ∀ y ∈ xs, ¬ y.HasRoom picks) (hw : (p.clocks.get c).run.pendingWithdrawal = false)
    (hh : (p.clocks.get c).run.pendingHold = false) : p.tries c id t picks xs =
      let k := (p.clocks.get c).endDecision
      (p.updChannels c ((p.clocks.get c).refusals c .picksFull xs)).enters c { k with
        state := if k.run.minPrice = some k.run.price then .floor else .running,
        strideTimer := some (p.now + k.config.stridePeriod) } :=
  (Part.tries_none h).trans (Part.noAwardMade_descends hw hh)

end

/-- Settles O42: the window's end tries the candidates, to the first with pick room or to the end of the decision. -/
theorem windowDecides : Obligations.WindowDecides := by
  intro c w id n t tr s hpin k hs hok htimer hlot ht hn htr reached awarding begun refused becomes
  have hsale : reached.OnSale c id t tr.picks := ⟨hlot, ht, Part.slotPicks_eq hn htr⟩
  have hdecides : becomes (reached.decides c id t tr.picks) := by
    refine (run_high hpin _).trans ?_
    rw [← expireWindow_eq hsale]
    simp only [windowStep, show (s.part.clocks.get c).windowTimer = some w from htimer]
    rw [if_pos hs]
    rfl
  have hbegun : begun.clocks.get c = awarding := Part.enters_get _ _ _
  have htries : ∀ {q}, begun.tries c id t tr.picks k.candidates = q → becomes q := fun hq => hq ▸ hdecides
  have hwithdrawal : k.run.pendingWithdrawal = false := by
    have := hok.soon.fits.withdrawal
    rw [hs] at this
    exact Bool.eq_false_iff.mpr fun h => Bool.noConfusion (this h)
  refine ⟨hdecides, fun pre x post hx hpre hroom => htries ?first,
    fun hnone => ⟨fun hh => htries ?descends, fun hh => htries ?held⟩⟩
  case first =>
    have hclocks : ∀ price, begun.clocks.upd c (fun k => { k with tried := k.tried + pre.length, inFlight := some price }) =
        s.part.clocks.upd c (fun _ => { awarding with tried := pre.length, inFlight := some price }) := by
      simp [begun, Part.enters, awarding, reached]
    refine (congrArg _ hx).trans ((Part.tries_first hpre hroom).trans ?_)
    rw [hbegun, ← hclocks]
    rfl
  case descends =>
    rw [Part.tries_descends hnone (by rw [hbegun]; exact hwithdrawal) (by rw [hbegun]; exact hh), hbegun]
    rfl
  case held =>
    rw [Part.tries_held hnone (by rw [hbegun]; exact hwithdrawal) (by rw [hbegun]; exact hh), hbegun]
    rfl

end Sys2Proof.Machine
end

section
/-! The answer to a reservation: REFUSE (O43) and GRANT (O44). -/

namespace Sys2Proof.Machine

/-! ### Orders of a table that end (R92, R96) -/

/-- The part once the orders of a clock's table that pass a test have left it, each told in table order. -/
def Part.ordersEnd (p : Part) (c : ClockId) (f : Order → Bool) (told : Order → ToAccount) : Part :=
  (p.updClock c (fun k => { k with orders := k.orders.filter (fun o => !f o) })).updChannels c (fun h =>
    { h with clockToAccount := h.clockToAccount ++ ((p.clocks.get c).orders.filter f).map told })

section
variable {p : Part} {c : ClockId} {f : Order → Bool} {told : Order → ToAccount} {o : Order} {x : Candidate} {os : List Order} {n : Nat}

theorem Part.ordersEnd_none (h : (p.clocks.get c).orders.filter f = []) : p.ordersEnd c f told = p := by
  have hkept : (p.clocks.get c).orders.filter (fun o => !f o) = (p.clocks.get c).orders :=
    List.filter_eq_self.mpr fun o ho => by simpa using List.filter_eq_nil_iff.mp h o ho
  simp only [Part.ordersEnd, Part.updClock, Part.updChannels, h, List.map_nil, List.append_nil, PerClock.upd_eq_self]
  rw [PerClock.upd_eq_self]
  rw [hkept]

/-- One order that ends, of a table with distinct numbers. -/
theorem Part.ordersEnd_one (h : (p.clocks.get c).orders.filter f = [o]) (hn : ((p.clocks.get c).orders.map Order.number).Nodup) :
    p.ordersEnd c f told =
      (p.updClock c (fun k => { k with orders := k.orders.filter (fun y => decide (y.number ≠ o.number)) })).toAccount c (told o) := by
  have hone : ∀ y ∈ (p.clocks.get c).orders, f y = true ↔ y.number = o.number := by
    have ho := List.mem_filter.mp (h ▸ List.mem_singleton_self o)
    intro y hy
    refine ⟨fun hf => ?_, fun he => List.inj_on_of_nodup_map hn hy ho.1 he ▸ ho.2⟩
    have hmem : y ∈ [o] := h ▸ List.mem_filter.mpr ⟨hy, hf⟩
    rw [List.mem_singleton.mp hmem]
  have hleft : (p.clocks.get c).orders.filter (fun o => !f o) =
      (p.clocks.get c).orders.filter (fun y => decide (y.number ≠ o.number)) :=
    List.filter_congr fun y hy => by rw [Bool.eq_iff_iff]; simp [← hone y hy]
  simp only [Part.ordersEnd, Part.updClock, h, Part.toAccount, List.map_cons, List.map_nil]
  rw [PerClock.upd_congr]
  rw [hleft]

/-! ### The order that a candidate names (R49, R90) -/

/-- R49, R90: whether a candidate was entered by an order. -/
def Candidate.names (x : Candidate) (o : Order) : Bool := decide (x.origin = .order o.number)

theorem Candidate.names_iff (hx : x.origin = .order n) (o : Order) : x.names o = true ↔ o.number = n := by
  simp [Candidate.names, hx, eq_comm]

theorem Candidate.names_pressed {target : DeskTarget} {tag : Option Nat} (hx : x.origin = .pressed target tag) (o : Order) :
    x.names o = false := by
  simp [Candidate.names, hx]

/-- Of distinct numbers a table holds one order at most. -/
theorem filter_number_of_nodup (h : (os.map Order.number).Nodup) (n : Nat) :
    os.filter (fun o => decide (o.number = n)) = (os.find? (fun o => decide (o.number = n))).toList := by
  induction os with
  | nil => rfl
  | cons o rest ih =>
    rw [List.map_cons, List.nodup_cons] at h
    obtain ⟨hnew, hrest⟩ := h
    by_cases ho : o.number = n
    · have hnone : rest.filter (fun o => decide (o.number = n)) = [] :=
        List.filter_eq_nil_iff.mpr fun y hy he => hnew (ho ▸ of_decide_eq_true he ▸ List.mem_map_of_mem hy)
      simp [ho, hnone]
    · simp [ho, ih hrest]

/-- The order named is the one that the table holds under its number. -/
theorem ClockUnit.filter_names {k : ClockUnit} (hx : x.origin = .order n) (h : (k.orders.map Order.number).Nodup) :
    k.orders.filter x.names = (k.orderNumbered n).toList := by
  rw [ClockUnit.orderNumbered, ← filter_number_of_nodup h]
  exact List.filter_congr fun o _ => by rw [Bool.eq_iff_iff, Candidate.names_iff hx, decide_eq_true_eq]

/-! ### The candidate in flight refused (R58, R63, R92) -/

/-- R92: whether the refusal of a candidate with a cause ends an order. -/
def Candidate.ends (x : Candidate) (cause : Cause) (o : Order) : Bool := decide (cause = .credit) && x.names o

/-- R92: a refusal CREDIT ends the order that the candidate names, and no other refusal ends one. -/
theorem endIfCredit_eq (cause : Cause) (x : Candidate) (hn : ((p.clocks.get c).orders.map Order.number).Nodup) :
    endIfCredit c cause x p = p.ordersEnd c (x.ends cause) (fun o => o.ended c .credit o.count o.target none) := by
  by_cases hc : cause = .credit
  · subst hc
    have hends : x.ends .credit = x.names := funext fun o => by simp [Candidate.ends]
    rw [hends]
    cases hx : x.origin with
    | pressed target tag =>
      rw [Part.ordersEnd_none (List.filter_eq_nil_iff.mpr fun o _ => by simp [Candidate.names_pressed hx])]
      simp only [endIfCredit, hx]
    | order n =>
      have hfilter := ClockUnit.filter_names hx hn
      simp only [endIfCredit, hx]
      cases ho : (p.clocks.get c).orderNumbered n with
      | none => rw [Part.ordersEnd_none (by rw [hfilter, ho]; rfl)]
      | some o => rw [Part.ordersEnd_one (by rw [hfilter, ho]; rfl) hn]; rfl
  · have hends : ∀ o, x.ends cause o = false := fun o => by simp [Candidate.ends, hc]
    rw [Part.ordersEnd_none (List.filter_eq_nil_iff.mpr fun o _ => by simp [hends])]
    unfold endIfCredit
    split
    · exact absurd rfl hc
    · rfl

/-- All that the refusal of a candidate does. -/
theorem refuseCandidate_ends (offered : Option Nat) (cause : Cause) (x : Candidate)
    (hn : ((p.clocks.get c).orders.map Order.number).Nodup) : refuseCandidate c offered cause p x =
      let k := p.clocks.get c
      (p.updClock c (fun k => { k with orders := k.orders.filter (fun o => !x.ends cause o) })).updChannels c (fun h => { h with
        clockToAccount := h.clockToAccount ++ k.refusal c cause x ::
          (k.orders.filter (x.ends cause)).map (fun o => o.ended c .credit o.count o.target none),
        clockReports := h.clockReports ++ [k.refusalReport c cause offered x] }) := by
  simp only [refuseCandidate]
  rw [endIfCredit_eq cause x (by exact hn)]
  simp only [Part.ordersEnd, Part.clockReport, Part.toAccount, Part.updChannels, Part.updClock, PerClock.upd_upd, List.append_assoc]
  rfl

/-! ### REFUSE (R58, R61, R62) -/

theorem takeRefuse_eq {cause : Cause} {price : Nat} {ys : List Candidate} (hx : (p.clocks.get c).undecided = x :: ys)
    (hf : (p.clocks.get c).inFlight = some price) : takeRefuse c cause p =
      afterRefusal c ys (refuseCandidate c (some price) cause
        (p.updClock c (fun k => { k with tried := k.tried + 1, inFlight := none })) x) := by
  simp only [takeRefuse, hx, hf]

variable {id : Nat} {t : Lot} {picks : List Pick} {ys : List Candidate}

/-- With no withdrawal pending the next candidates are tried. -/
theorem afterRefusal_goes (h : p.OnSale c id t picks) (hw : (p.clocks.get c).run.pendingWithdrawal = false) :
    afterRefusal c ys p = p.tries c id t picks ys := by
  rw [← tryCandidates_eq h]
  exact if_neg (ne_true_of_eq_false hw)

/-- With a withdrawal pending they are refused and the lot is withdrawn. -/
theorem afterRefusal_ends (h : p.OnSale c id t picks) (hw : (p.clocks.get c).run.pendingWithdrawal = true) :
    afterRefusal c ys p =
      ((p.updChannels c ((p.clocks.get c).refusals c .withdrawn ys)).updClock c ClockUnit.endDecision).lotEnds c id t .withdrawn := by
  refine (if_pos hw).trans ?_
  rw [refuseAll_eq _ _ (by decide), noAward_eq (h.of_eq (q := p.updChannels c _) rfl rfl)]
  exact Part.noAwardMade_withdrawn hw

end

/-- Settles O43: the candidate in flight is refused; then the next are tried, or the lot is withdrawn. -/
theorem refusalTaken : Obligations.RefusalTaken := by
  intro c cause rest id n price t tr x ys s hpin h k hs hok hx hf hlot ht hn htr ends after refused ended told becomes
  let taken : Part := { s.part with channels := s.part.channels.upd c (fun h => { h with accountToClock := rest }) }
  have hsale : refused.OnSale c id t tr.picks :=
    ⟨by simpa [refused] using hlot, ht, Part.slotPicks_eq (p := refused) hn htr⟩
  have hget : refused.clocks.get c = after := PerClock.get_upd_self _ _ _
  have hrefused : takeRefuse c cause taken = afterRefusal c ys refused := by
    rw [takeRefuse_eq (p := taken) hx hf, refuseCandidate_ends (some price) cause x (by simpa [taken] using hok.soon.fits.orders.numbers)]
    simp only [Part.updClock, Part.updChannels, PerClock.upd_upd, PerClock.get_upd_self, taken]
    rw [PerClock.upd_congr s.part.clocks c _ (fun _ => after) rfl]
    rfl
  have hgives : ∀ {q}, afterRefusal c ys refused = q → becomes q := fun hq =>
    takeFromAccount_gives hpin h rfl (hrefused.trans hq)
  have hrun : (refused.clocks.get c).run = k.run := by rw [hget]
  have htries : ∀ {q}, k.run.pendingWithdrawal = false → refused.tries c id t tr.picks ys = q → becomes q := fun hw hq =>
    hgives ((afterRefusal_goes hsale (by rw [hrun]; exact hw)).trans hq)
  have htold : ∀ e xs k', told e xs k' = (refused.updChannels c (k.refusals c e xs)).updClock c (fun _ => k') := fun e xs k' => by
    simp only [told, Part.updClock, Part.updChannels, refused, PerClock.upd_upd]
  refine ⟨fun hw => htries hw rfl, fun hw => hgives ?withdrawn, fun pre y post hw hys hpre hroom => htries hw ?next,
    fun hw hnone => ⟨fun hh => htries hw ?descends, fun hh => htries hw ?held⟩⟩
  case withdrawn =>
    rw [afterRefusal_ends hsale (by rw [hrun]; exact hw), hget, htold]
    exact Part.updClock_lotEnds .withdrawn (by rw [Part.updChannels_clocks, hget]; rfl)
  case next =>
    refine (congrArg _ hys).trans ((Part.tries_first hpre hroom).trans ?_)
    rw [hget, htold]
    simp only [Part.updClock, Part.updChannels, refused, PerClock.upd_upd]
    rfl
  case descends =>
    rw [Part.tries_descends hnone (by rw [hrun]; exact hw) (by rw [hrun]; exact hh), hget, htold, Part.updClock_enters]
    rfl
  case held =>
    rw [Part.tries_held hnone (by rw [hrun]; exact hw) (by rw [hrun]; exact hh), hget, htold, Part.updClock_enters]
    rfl

end Sys2Proof.Machine
end

section
/-! GRANT: the award made and told, and the way the clock goes on (O44). -/

namespace Sys2Proof.Machine

section
variable {p : Part} {c : ClockId} {id n price line : Nat} {t : Lot} {picks : List Pick} {x : Candidate} {ys : List Candidate}
  {os : List Order} {o : Order}

/-! ### The count of the winner's order (R92) -/

/-- R92: whether a win ends an order. -/
def Candidate.completes (x : Candidate) (o : Order) : Bool := x.names o && decide (o.count ≤ 1)

/-- R92: an order once a candidate has won. -/
def Candidate.counted (x : Candidate) (o : Order) : Order := if x.names o then { o with count := o.count - 1 } else o

/-- A win of another leaves the orders as they were. -/
theorem Candidate.map_counted_of_none (h : ∀ o ∈ os, x.names o = false) : os.map x.counted = os :=
  (List.map_congr_left fun o ho => by simp [Candidate.counted, h o ho]).trans (List.map_id os)

theorem Candidate.filter_completes (x : Candidate) (os : List Order) :
    os.filter x.completes = (os.filter x.names).filter (fun o => decide (o.count ≤ 1)) := by
  rw [List.filter_filter]
  exact List.filter_congr fun o _ => by rw [Candidate.completes, Bool.and_comm]

theorem ClockUnit.number_of_orderNumbered {k : ClockUnit} (h : k.orderNumbered n = some o) : o.number = n := by
  simpa using List.find?_some h

/-- R92: the part once a win of a candidate has been counted: an order without wins left has ended, any other has one win less. -/
def Part.winCounted (p : Part) (c : ClockId) (x : Candidate) : Part :=
  (p.ordersEnd c x.completes (fun o => o.ended c .complete 0 o.target none)).updClock c (fun k =>
    { k with orders := k.orders.map x.counted })

/-- A candidate that names no order of the table counts for none. -/
theorem Part.winCounted_none (h : (p.clocks.get c).orders.filter x.names = []) : p.winCounted c x = p := by
  rw [Part.winCounted, Part.ordersEnd_none (by rw [Candidate.filter_completes, h]; rfl), Part.updClock, PerClock.upd_eq_self]
  rw [Candidate.map_counted_of_none fun o ho => by simpa using List.filter_eq_nil_iff.mp h o ho]

/-- The last win of an order ends it. -/
theorem Part.winCounted_last (h : (p.clocks.get c).orders.filter x.names = [o])
    (hn : ((p.clocks.get c).orders.map Order.number).Nodup) (hx : x.origin = .order o.number) (hcount : o.count ≤ 1) :
    p.winCounted c x = endOrder c { o with count := 0 } .complete o.target none p := by
  have hleft : ((p.clocks.get c).orders.filter (fun y => decide (y.number ≠ o.number))).map x.counted =
      (p.clocks.get c).orders.filter (fun y => decide (y.number ≠ o.number)) :=
    Candidate.map_counted_of_none fun y hy => Bool.eq_false_iff.mpr fun hnamed =>
      of_decide_eq_true (List.mem_filter.mp hy).2 ((Candidate.names_iff hx y).mp hnamed)
  rw [Part.winCounted, Part.ordersEnd_one (o := o) (by rw [Candidate.filter_completes, h]; simp [hcount]) hn]
  simp only [endOrder, Part.toAccount, Part.updClock, Part.updChannels, PerClock.upd_upd]
  rw [PerClock.upd_congr p.clocks c _ (fun k => { k with orders := k.orders.filter (fun y => decide (y.number ≠ o.number)) })]
  · rfl
  · rw [hleft]

/-- Before the last its count is lowered. -/
theorem Part.winCounted_more (h : (p.clocks.get c).orders.filter x.names = [o]) (hcount : ¬ o.count ≤ 1) :
    p.winCounted c x = p.updClock c (fun k => { k with orders := k.orders.map x.counted }) := by
  rw [Part.winCounted, Part.ordersEnd_none (by rw [Candidate.filter_completes, h]; simp [hcount])]

/-- R92: a win lowers the count of the order that the candidate names, or ends it. -/
theorem countWin_eq (hn : ((p.clocks.get c).orders.map Order.number).Nodup) : countWin c x p = p.winCounted c x := by
  cases hx : x.origin with
  | pressed target tag =>
    rw [Part.winCounted_none (List.filter_eq_nil_iff.mpr fun o _ => by simp [Candidate.names_pressed hx])]
    simp only [countWin, hx]
  | order n =>
    have hfilter := ClockUnit.filter_names hx hn
    simp only [countWin, hx]
    cases ho : (p.clocks.get c).orderNumbered n with
    | none => rw [Part.winCounted_none (by rw [hfilter, ho]; rfl)]
    | some o =>
      obtain rfl : o.number = n := ClockUnit.number_of_orderNumbered ho
      replace hfilter : (p.clocks.get c).orders.filter x.names = [o] := hfilter.trans (by rw [ho]; rfl)
      by_cases hcount : o.count ≤ 1
      · rw [Part.winCounted_last hfilter hn hx hcount]
        exact if_pos hcount
      · have hcounted : x.counted = fun y => if y.number = o.number then { y with count := y.count - 1 } else y :=
          funext fun y => if_congr (Candidate.names_iff hx y) rfl rfl
        rw [Part.winCounted_more hfilter hcount, hcounted]
        exact if_neg hcount

/-! ### The records of an award (R18, R59) -/

/-- R59: a lot once units of it are awarded. -/
def Lot.awarded (t : Lot) (units : Nat) : Lot := { t with remaining := t.remaining - units, sold := t.sold + units }

/-- R18: the merge of an award into a pick list, as the statements spell it. -/
theorem mergePick_eq (picks : List Pick) (x : Candidate) :
    mergePick picks x.buyer x.point x.quantity =
      let own (p : Pick) : Bool := decide (p.buyer = x.buyer) && decide (p.point = x.point)
      if picks.any own then picks.map (fun p => if own p then { p with units := p.units + x.quantity } else p)
      else picks ++ [⟨x.buyer, x.point, x.quantity⟩] := by
  simp [mergePick]

/-- R18, R59: the part once an award of the lot `id` has been written, with the trolley `n` in the slot. -/
def Part.recorded (p : Part) (c : ClockId) (id n price : Nat) (x : Candidate) : Part :=
  { p with
    supply := { p.supply with
      lots := p.supply.lots.modify id (fun t => t.awarded x.quantity),
      trolleys := p.supply.trolleys.modify n (fun y => { y with picks := mergePick y.picks x.buyer x.point x.quantity }) },
    clocks := p.clocks.upd c (fun k => { k with run := { k.run with lastAward := some ⟨x.buyer, x.quantity, price⟩ } }) }

theorem recordAward_eq (h : p.OnSale c id t picks) (hn : p.supply.slots.get c = some n) :
    recordAward c x price p = p.recorded c id n price x := by
  have hslot : ∀ f, (p.updLot id f).supply.slots.get c = some n := fun _ => hn
  simp only [recordAward, mergeSlotPick, h.saleId, hslot]
  rfl

/-- The lot stays on sale, with the units left. -/
theorem Part.OnSale.recorded (h : p.OnSale c id t picks) :
    (p.recorded c id n price x).OnSale c id (t.awarded x.quantity) ((p.recorded c id n price x).slotPicks c) := by
  refine ⟨by simpa [Part.recorded] using h.lot, ?_, rfl⟩
  have hfind := Table.find_modify_self p.supply.lots id (fun t => t.awarded x.quantity)
  rw [show Table.find p.supply.lots id = some t from h.record] at hfind
  exact hfind

/-- R60, R170: what an award of a lot on sale sends and hands over. -/
theorem tellAward_eq (h : p.OnSale c id t picks) : tellAward c x price line p =
    let k := p.clocks.get c
    { p with
      links := p.consoleTold p.links c
        [.awardNotice ⟨c, k.run.run, id, x.buyer, x.point, x.origin.origin, x.position, x.quantity, price, t.remaining, line⟩],
      channels := p.channels.upd c (fun h => { h with
        clockToAccount := h.clockToAccount ++ [.outcome x.buyer x.origin.tag
          (.award ⟨c, k.run.run, id, t.product, x.position, x.quantity, price, line, x.origin.origin⟩)],
        clockToDisplay := h.clockToDisplay ++ [.award (p.report c) x.quantity],
        clockReports := h.clockReports ++
          [.outcome ⟨c, k.run.run, id, x.buyer, x.origin.origin, x.position, x.quantity, .award price line⟩] }) } := by
  have hnotice : p.awardNotice c x price line =
      ⟨c, (p.clocks.get c).run.run, id, x.buyer, x.point, x.origin.origin, x.position, x.quantity, price, t.remaining, line⟩ := by
    rw [Part.awardNotice, h.saleId, h.saleLot]
  have hbody : ∀ links, ({ p with links := links } : Part).awardBody c x price line =
      ⟨c, (p.clocks.get c).run.run, id, t.product, x.position, x.quantity, price, line, x.origin.origin⟩ := fun links => by
    have hsale : ({ p with links := links } : Part).OnSale c id t picks := h.of_eq rfl rfl
    rw [Part.awardBody, hsale.saleId, hsale.saleLot]
  have hid : p.saleId c = id := h.saleId
  simp only [tellAward, hnotice]
  rw [Part.toConsole_eq (t := p) rfl, hbody]
  simp only [Part.toAccount, Part.toDisplay, Part.clockReport, Part.updChannels, PerClock.upd_upd, Part.outcomeReport]
  subst hid
  rfl

/-- R60, R92: the whole of what an award of a lot on sale does, but for its records: it is told, the later candidates are refused, and the
winner's order is counted. -/
theorem awardMade_eq (h : p.OnSale c id t picks) (hn : ((p.clocks.get c).orders.map Order.number).Nodup) :
    countWin c x (refuseAll c .outbid ys (tellAward c x price line p)) =
      let k := p.clocks.get c
      { p with
        links := p.consoleTold p.links c
          [.awardNotice ⟨c, k.run.run, id, x.buyer, x.point, x.origin.origin, x.position, x.quantity, price, t.remaining, line⟩],
        clocks := p.clocks.upd c (fun k => { k with orders := (k.orders.filter (fun o => !x.completes o)).map x.counted }),
        channels := p.channels.upd c (fun h => { h with
          clockToAccount := h.clockToAccount ++
            [.outcome x.buyer x.origin.tag
              (.award ⟨c, k.run.run, id, t.product, x.position, x.quantity, price, line, x.origin.origin⟩)] ++
            ys.map (k.refusal c .outbid) ++ (k.orders.filter x.completes).map (fun o => o.ended c .complete 0 o.target none),
          clockToDisplay := h.clockToDisplay ++ [.award (p.report c) x.quantity],
          clockReports := h.clockReports ++
            .outcome ⟨c, k.run.run, id, x.buyer, x.origin.origin, x.position, x.quantity, .award price line⟩ ::
            ys.map (k.refusalReport c .outbid none) }) } := by
  rw [tellAward_eq h, refuseAll_eq _ _ (by decide), countWin_eq (by exact hn)]
  simp only [Part.winCounted, Part.ordersEnd, Part.updClock, Part.updChannels, PerClock.upd_upd, ClockUnit.refusals, List.append_assoc,
    List.singleton_append]

/-! ### The clock goes on (R35, R74) -/

/-- R74: a Clock Unit once a decision has ended with an award that leaves units of the lot. -/
def ClockUnit.raised (k : ClockUnit) (price : Nat) (t : Lot) : ClockUnit :=
  { k.endDecision with
    run := { k.run with
      restartPrice := some (min (price + k.config.restartMarkup * k.run.step.getD 0) (t.ceiling.getD price)), dwell := 0 } }

/-- R29: an award of the last units closes the lot. -/
theorem afterAward_soldOut (h : p.OnSale c id t picks) (h0 : t.remaining = 0) :
    afterAward c price p = (p.updClock c ClockUnit.endDecision).lotEnds c id t .soldOut := by
  have hsale : (p.updClock c ClockUnit.endDecision).OnSale c id t picks := h.of_eq rfl (by simp [ClockUnit.endDecision])
  rw [← lotDone_eq _ hsale.lot hsale.record]
  exact if_pos (by rw [hsale.saleLot]; exact h0)

theorem afterAward_left (h : p.OnSale c id t picks) (h0 : t.remaining ≠ 0) :
    afterAward c price p =
      let k := p.clocks.get c
      let q := p.updClock c (fun _ => k.raised price t)
      if k.run.pendingWithdrawal then lotDone c .withdrawn q
      else if k.run.pendingHold then applyHold c .restart q
      else if k.run.hallView = .opened then enterRestart c q
      else enterReady c q := by
  have hsale : (p.updClock c ClockUnit.endDecision).OnSale c id t picks := h.of_eq rfl (by simp [ClockUnit.endDecision])
  refine (if_neg (by rw [hsale.saleLot]; exact h0)).trans ?_
  rw [hsale.saleLot]
  simp only [Part.updRun, Part.updClock, PerClock.upd_upd, PerClock.get_upd_self]
  rw [PerClock.upd_congr p.clocks c _ (fun _ => (p.clocks.get c).raised price t) rfl]
  rfl

theorem afterAward_withdrawn (h : p.OnSale c id t picks) (h0 : t.remaining ≠ 0)
    (hw : (p.clocks.get c).run.pendingWithdrawal = true) :
    afterAward c price p = (p.updClock c (fun _ => (p.clocks.get c).raised price t)).lotEnds c id t .withdrawn := by
  have hsale : (p.updClock c (fun _ => (p.clocks.get c).raised price t)).OnSale c id t picks :=
    h.of_eq rfl (by simp [ClockUnit.raised])
  rw [← lotDone_eq _ hsale.lot hsale.record, afterAward_left h h0]
  exact if_pos hw

theorem afterAward_held (h : p.OnSale c id t picks) (h0 : t.remaining ≠ 0)
    (hw : (p.clocks.get c).run.pendingWithdrawal = false) (hh : (p.clocks.get c).run.pendingHold = true) :
    afterAward c price p =
      let k := (p.clocks.get c).raised price t
      p.enters c { k with state := .held, run := { k.run with heldFrom := some .restart, pendingHold := false } } := by
  rw [afterAward_left h h0]
  refine (if_neg (ne_true_of_eq_false hw)).trans ((if_pos hh).trans ?_)
  rw [applyHold_enters, Part.updClock_enters, Part.updClock_clocks, PerClock.get_upd_self]

theorem afterAward_restart (h : p.OnSale c id t picks) (h0 : t.remaining ≠ 0)
    (hw : (p.clocks.get c).run.pendingWithdrawal = false) (hh : (p.clocks.get c).run.pendingHold = false)
    (hv : (p.clocks.get c).run.hallView = .opened) :
    afterAward c price p =
      let k := (p.clocks.get c).raised price t
      p.enters c { k with state := .restart, restartTimer := some (p.now + k.config.restartDelay) } := by
  rw [afterAward_left h h0]
  refine (if_neg (ne_true_of_eq_false hw)).trans ((if_neg (ne_true_of_eq_false hh)).trans ((if_pos hv).trans ?_))
  rw [enterRestart_enters, Part.updClock_enters, Part.updClock_clocks, PerClock.get_upd_self]
  rfl

theorem afterAward_ready (h : p.OnSale c id t picks) (h0 : t.remaining ≠ 0)
    (hw : (p.clocks.get c).run.pendingWithdrawal = false) (hh : (p.clocks.get c).run.pendingHold = false)
    (hv : (p.clocks.get c).run.hallView ≠ .opened) :
    afterAward c price p =
      let k := (p.clocks.get c).raised price t
      p.enters c { k with
        state := .ready, restartTimer := none, run := { k.run with position := 0, price := k.run.readyPrice, dwell := 0 } } := by
  rw [afterAward_left h h0]
  refine (if_neg (ne_true_of_eq_false hw)).trans ((if_neg (ne_true_of_eq_false hh)).trans ((if_neg hv).trans ?_))
  rw [enterReady_enters c _ _ rfl, Part.updClock_enters, Part.updClock_clocks, PerClock.get_upd_self]

end

/-- Settles O44: the award is written and told, the later candidates are refused, the winner's order is counted, and the clock goes on. -/
theorem grantAwards : Obligations.GrantAwards := by
  intro c line rest id n price t x ys s hpin h k hs hok hx hf hlot ht hn own merged left sold again wins won recorded awarded raised becomes
  let taken : Part := { s.part with channels := s.part.channels.upd c (fun h => { h with accountToClock := rest }) }
  have hsale : taken.OnSale c id t (taken.slotPicks c) := ⟨hlot, ht, rfl⟩
  have hwritten : (taken.recorded c id n price x).clocks.get c =
      { k with run := { k.run with lastAward := some ⟨x.buyer, x.quantity, price⟩ } } := PerClock.get_upd_self _ _ _
  let made := countWin c x (refuseAll c .outbid ys (tellAward c x price line (taken.recorded c id n price x)))
  have hmade := awardMade_eq (x := x) (ys := ys) (price := price) (line := line) (hsale.recorded (n := n) (price := price))
    (by rw [hwritten]; exact hok.soon.fits.orders.numbers)
  rw [show countWin c x _ = made from rfl] at hmade
  have htold : ∀ k', made.updClock c (fun _ => k') = { awarded with clocks := s.part.clocks.upd c (fun _ => k') } := by
    intro k'
    have hreport : (taken.recorded c id n price x).report c = recorded.report c := by
      refine Part.report_congr rfl ?_ ?_ <;> simp [hwritten, recorded, won, k]
    rw [hmade, hreport, hwritten]
    simp only [Part.updClock, Part.recorded, PerClock.upd_upd, taken, mergePick_eq]
    rfl
  have hget : made.clocks.get c = { won with
      candidates := k.candidates, arrivals := k.arrivals, tried := k.tried, inFlight := k.inFlight } := by
    rw [hmade]
    simp only [PerClock.get_upd_self, hwritten]
    rfl
  have hon : made.OnSale c id sold _ := hsale.recorded.of_eq (q := made) (by rw [hmade]) (by rw [hget, hwritten])
  have hrun : (made.clocks.get c).run = won.run := by rw [hget]
  have hgives : ∀ {q}, afterAward c price made = q → becomes q := fun {q} hq => by
    have hgrant : takeGrant c line taken = afterAward c price made := by
      simp only [takeGrant, show (taken.clocks.get c).undecided = x :: ys from hx, show (taken.clocks.get c).inFlight = some price from hf]
      rw [recordAward_eq hsale hn]
    exact takeFromAccount_gives hpin h rfl (hgrant.trans hq)
  have henters : ∀ k', made.enters c k' = awarded.enters c k' := fun k' => by
    rw [← Part.updClock_enters made c (fun _ => won), htold]
  refine ⟨fun h0 => hgives ?soldOut, fun h0 hw => hgives ?withdrawn,
    fun h0 hw => ⟨fun hh => hgives ?held, fun hh hv => hgives ?restart, fun hh hv => hgives ?ready⟩⟩
  case soldOut =>
    have hwon : awarded = made.updClock c (fun _ => won) := (htold won).symm
    rw [afterAward_soldOut hon h0, hwon]
    exact Part.updClock_lotEnds .soldOut (by rw [hget]; rfl)
  case withdrawn =>
    rw [afterAward_withdrawn hon h0 (by rw [hrun]; exact hw), htold, hget]
    rfl
  case held =>
    rw [afterAward_held hon h0 (by rw [hrun]; exact hw) (by rw [hrun]; exact hh), henters, hget]
    rfl
  case restart =>
    have hnow : made.now = s.part.now := by rw [hmade]; rfl
    rw [afterAward_restart hon h0 (by rw [hrun]; exact hw) (by rw [hrun]; exact hh) (by rw [hrun]; exact hv), henters, hget, hnow]
    rfl
  case ready =>
    rw [afterAward_ready hon h0 (by rw [hrun]; exact hw) (by rw [hrun]; exact hh) (by rw [hrun]; exact hv), henters, hget]
    rfl

end Sys2Proof.Machine
end

section
/-! What a Clock Unit hands back for desks, delivered (O45). -/

namespace Sys2Proof.Machine

/-- R151, R159: what a link UP does with an urgent message, as the statements spell it. -/
theorem Link.told_eq (k : Link) (m : OutMsg) : k.told m =
    if k.state ≠ .up then k else if k.urgent.length < 24 then { k with urgent := k.urgent ++ [m] }
    else { k with gapPending := true, stats := { k.stats with urgentDrops := count32 k.stats.urgentDrops } } := by
  rw [ite_not]
  rfl

/-! ### The desk a buyer is bound to (R106) -/

/-- A list that gives a value at one entry alone gives that value. -/
theorem findSome?_of_only {α β : Type} {f : α → Option β} {xs : List α} {x : α} {v : β} (hx : x ∈ xs) (hv : f x = some v)
    (hother : ∀ y, y ≠ x → f y = none) : xs.findSome? f = some v := by
  cases h : xs.findSome? f with
  | none => exact absurd (List.findSome?_eq_none_iff.mp h x hx) (by simp [hv])
  | some w =>
    obtain ⟨y, -, hy⟩ := List.exists_of_findSome?_eq_some h
    have hyx : y = x := by
      by_contra hne
      simp [hother y hne] at hy
    rw [← hy, hyx, hv]

section
variable {p : Part} {l : LinkId} {i d : Nat} {g : DeskGroup}

/-- The desk target of an index that the map of one link alone holds. -/
theorem Part.deskTarget_of_only (hg : p.account.groups.get l = some g) (hd : hallToLocal g.map i = some d)
    (hother : ∀ l' g', p.account.groups.get l' = some g' → l' ≠ l → hallToLocal g'.map i = none) :
    p.deskTarget i = some ⟨l, d⟩ := by
  refine findSome?_of_only (mem_linkIds l) (by simp [hg, hd]) fun l' hne => ?_
  cases hg' : p.account.groups.get l' with
  | none => rfl
  | some g' => simp [hother l' g' hg' hne]

theorem Part.boundTarget_unbound {buyer : Nat} (h : p.buyer buyer = none ∨ ∃ r, p.buyer buyer = some r ∧ r.desk = none) :
    p.boundTarget buyer = none := by
  rcases h with h | ⟨r, h, hd⟩
  · simp [Part.boundTarget, h]
  · simp [Part.boundTarget, h, hd]

theorem Part.boundTarget_bound {buyer : Nat} {t : DeskTarget} {r : Buyer} (h : p.buyer buyer = some r) (hi : r.desk = some i)
    (ht : p.deskTarget i = some t) : p.boundTarget buyer = some t := by
  simp [Part.boundTarget, h, hi, ht]

end

/-- R94, R95: the reasons at which ORDER ENDED keeps to the target of the hand-over. -/
theorem EndReason.keepsTarget_iff (r : EndReason) : r.keepsTarget = true ↔ r = .logout ∨ r = .cancelled := by
  cases r <;> simp [EndReason.keepsTarget]

/-- What a unit makes of a hand-over of a Clock Unit is what the command leaves. -/
theorem takeFromClock_gives {s : State} {c : ClockId} {f : ToAccount → Option (Part → Part)} {g : Part → Part} {q : Part}
    {m : ToAccount} {rest : List ToAccount} (hpin : s.pinLow = false) (h : (s.part.channels.get c).clockToAccount = m :: rest)
    (hf : f m = some g)
    (hg : g { s.part with channels := s.part.channels.upd c (fun h => { h with clockToAccount := rest }) } = q) :
    run s (takeFromClock c f) = .next (s.after q) := by
  rw [run_high hpin, ← hg]
  simp only [takeFromClock, h, hf]
  rfl

/-- Settles O45: outcomes by the binding, answers by the link they name, and ORDER ENDED by its reason and the binding. -/
theorem outcomesDelivered : Obligations.OutcomesDelivered := by
  intro c rest s hpin first taken posted unbound bound
  let p : Part := { s.part with channels := s.part.channels.upd c (fun h => { h with clockToAccount := rest }) }
  have hposted : ∀ l m, p.postUrgent l m = (posted l m).part := fun l m => by
    rw [Part.postUrgent_eq]
    simp only [Link.told_eq]
    rfl
  have hunbound : ∀ {buyer}, unbound buyer → p.boundTarget buyer = none := fun h => Part.boundTarget_unbound (p := p) h
  have hbound : ∀ {buyer l d}, bound buyer l d → p.boundTarget buyer = some ⟨l, d⟩ := by
    rintro buyer l d ⟨r, i, g, hr, hi, hg, hd, hother⟩
    exact Part.boundTarget_bound (p := p) hr hi (Part.deskTarget_of_only (p := p) hg hd hother)
  have hgives : ∀ {f m g l o}, first m → f m = some g → g p = p.postUrgent l o → run s (takeFromClock c f) = .next (posted l o) :=
    fun h hf hg => takeFromClock_gives hpin h hf (hg.trans (hposted _ _))
  have hended : ∀ {l tag b t}, first (.orderEnded l tag b) → p.endedTarget l b = t →
      exec (.orderEnded c) s = .next (posted t.link ⟨tag, .orderEnded { b with desk := t.desk }⟩) :=
    fun h ht => hgives h rfl (ht ▸ rfl)
  refine ⟨fun buyer tag o h => ⟨fun hu => ?unsent, fun l d hb => ?sent⟩, fun target tag o h => hgives h rfl ?reply,
    fun l tag b h => ⟨fun hk => hended (t := ⟨l, b.desk⟩) h ?kept, fun n d hl hc hb => hended (t := ⟨n, d⟩) h ?moved⟩⟩
  case unsent =>
    refine takeFromClock_gives hpin h rfl ?_
    exact (deliver_eq buyer tag o p).trans (by rw [hunbound hu])
  case sent =>
    refine hgives h rfl ?_
    rw [deliver, hbound hb]
    cases o <;> rfl
  case reply => cases o <;> rfl
  case kept =>
    rcases hk with hk | hk | hk
    · exact Part.endedTarget_kept (b.reason.keepsTarget_iff.mpr (Or.inl hk))
    · exact Part.endedTarget_kept (b.reason.keepsTarget_iff.mpr (Or.inr hk))
    · exact Part.endedTarget_unbound (hunbound hk)
  case moved =>
    have hk : b.reason.keepsTarget = false :=
      Bool.eq_false_iff.mpr fun hk => (b.reason.keepsTarget_iff.mp hk).elim hl hc
    exact Part.endedTarget_bound hk (hbound hb)

end Sys2Proof.Machine
end

section
/-! The price of a run, and the clamps of a bid (O10). -/

namespace Sys2Proof.Machine

/-! ### The price at a position (R69) -/

/-- The price falls by the step at each position and is held at the minimum price. -/
theorem priceAt_eq_max {S M : Nat} (h : M ≤ S) (s p : Nat) : priceAt S s M p = max M (S - p * s) := by
  unfold priceAt
  split <;> omega

theorem priceAt_of_le {S s M p : Nat} (h : M ≤ S) (hp : p * s ≤ S - M) : priceAt S s M p = S - p * s := by
  rw [priceAt_eq_max h]
  exact max_eq_right (by omega)

theorem priceAt_of_lt {S s M p : Nat} (h : M ≤ S) (hp : S - M < p * s) : priceAt S s M p = M := by
  rw [priceAt_eq_max h]
  exact max_eq_left (by omega)

theorem minimum_le_priceAt {S M : Nat} (h : M ≤ S) (s p : Nat) : M ≤ priceAt S s M p :=
  priceAt_eq_max h s p ▸ le_max_left _ _

theorem priceAt_le_start {S M : Nat} (h : M ≤ S) (s p : Nat) : priceAt S s M p ≤ S :=
  priceAt_eq_max h s p ▸ max_le h (Nat.sub_le _ _)

/-- The price never rises from a position to a later one. -/
theorem priceAt_antitone {S M : Nat} (h : M ≤ S) (s : Nat) : Antitone (priceAt S s M) := by
  intro p q hpq
  rw [priceAt_eq_max h, priceAt_eq_max h]
  exact max_le_max_left M (Nat.sub_le_sub_left (Nat.mul_le_mul_right s hpq) S)

/-! ### The pressed position (R47) -/

theorem clampPosition_of_arrival_le {arrival pressed : Nat} (lag : Nat) (h : arrival ≤ pressed) :
    clampPosition arrival lag pressed = arrival := by
  rw [clampPosition, min_eq_right h, max_eq_right (Nat.sub_le _ _)]

theorem clampPosition_of_lt_lag {arrival lag pressed : Nat} (h : pressed < arrival - lag) :
    clampPosition arrival lag pressed = arrival - lag := by
  rw [clampPosition]
  exact max_eq_left ((min_le_left _ _).trans h.le)

theorem clampPosition_of_within {arrival lag pressed : Nat} (hlag : arrival - lag ≤ pressed) (h : pressed ≤ arrival) :
    clampPosition arrival lag pressed = pressed := by
  rw [clampPosition, min_eq_left h, max_eq_right hlag]

/-! ### The asked quantity (R48) -/

/-- What is asked, raised to the minimum purchase, when it leaves nothing or a minimum purchase. -/
theorem clampQuantity_of_leaves {m r asked : Nat} (hr : max asked m ≤ r) (h : max asked m = r ∨ m ≤ r - max asked m) :
    clampQuantity m r asked = max asked m := by
  simp only [clampQuantity, min_eq_left hr]
  exact if_neg (by omega)

/-- The whole remainder, when more is asked or less than a minimum purchase would stay. -/
theorem clampQuantity_eq_remaining {m r asked : Nat} (h : r ≤ max asked m ∨ r - max asked m < m) : clampQuantity m r asked = r := by
  simp only [clampQuantity]
  split <;> omega

/-- Every asked quantity is one of the two cases. -/
theorem clampQuantity_cases (m r asked : Nat) :
    clampQuantity m r asked = r ∨ clampQuantity m r asked = max asked m ∧ m ≤ r - max asked m := by
  by_cases hrest : r ≤ max asked m ∨ r - max asked m < m
  · exact Or.inl (clampQuantity_eq_remaining hrest)
  · have hkeeps : m ≤ r - max asked m := by omega
    exact Or.inr ⟨clampQuantity_of_leaves (by omega) (Or.inr hkeeps), hkeeps⟩

theorem minPurchase_le_clampQuantity {m r : Nat} (h : m ≤ r) (asked : Nat) : m ≤ clampQuantity m r asked := by
  rcases clampQuantity_cases m r asked with hq | ⟨hq, -⟩
  · rwa [hq]
  · rw [hq]
    exact le_max_right _ _

/-- The units left behind are none or a minimum purchase at least. -/
theorem clampQuantity_leaves (m r asked : Nat) : clampQuantity m r asked = r ∨ m ≤ r - clampQuantity m r asked :=
  (clampQuantity_cases m r asked).imp_right fun ⟨hq, hkeeps⟩ => hq ▸ hkeeps

/-- Settles O10: the price is the larger of the minimum and the fallen price; the clamps clause by clause. -/
theorem pricesAndClamps : Obligations.PricesAndClamps := by
  refine ⟨fun S s M p q h => ⟨priceAt_of_le h, priceAt_of_lt h, minimum_le_priceAt h s p, priceAt_le_start h s p,
      fun hpq => priceAt_antitone h s hpq, fun hp hs => Nat.mul_le_mul hp hs⟩,
    fun arrival lag pressed => ⟨clampPosition_of_arrival_le lag, clampPosition_of_lt_lag, clampPosition_of_within⟩,
    fun m r asked h => ⟨fun hlow hrest => ?raised, fun hmore => ?above, fun hm hr hrest => ?kept, fun hm _ hrest => ?swept,
      minPurchase_le_clampQuantity h asked, clampQuantity_le m r asked, clampQuantity_leaves m r asked⟩⟩
  case raised =>
    have hmax : max asked m = m := max_eq_right hlow.le
    exact (clampQuantity_of_leaves (hmax.le.trans h) (hmax.symm ▸ hrest)).trans hmax
  case above => exact clampQuantity_eq_remaining (Or.inl (hmore.le.trans (le_max_left _ _)))
  case kept =>
    have hmax : max asked m = asked := max_eq_left hm
    exact (clampQuantity_of_leaves (hmax.le.trans hr) (hmax.symm ▸ hrest)).trans hmax
  case swept => exact clampQuantity_eq_remaining (Or.inr ((max_eq_left hm).symm ▸ hrest))

end Sys2Proof.Machine
end

section
/-! The figures of an invoice line and their largest values (O11). -/

namespace Sys2Proof.Machine

/-- R79: the figures of a reservation's line are those under the entry that the tariff has for its class. -/
theorem Account.figures_of_entry {a : Account} {r : Reservation} {es : List TariffEntry} {e : TariffEntry}
    (ht : a.tariff = some es) (he : es[r.cls]? = some e) : a.figures r = lineFigures e r.price r.quantity r.stems := by
  simp [Account.figures, Account.tariffEntry, ht, he]

/-! ### The goods and the commission (R75 to R77) -/

/-- R76: a gross below 5 mils rounds to no cent. -/
theorem lineGoods_eq_zero {price units stems : Nat} (h : lineGross price units stems ≤ 4) : lineGoods price units stems = 0 :=
  Nat.div_eq_of_lt (by omega)

/-- R76: a gross of 5 mils rounds up to a cent. -/
theorem lineGoods_of_five {price units stems : Nat} (h : lineGross price units stems = 5) : lineGoods price units stems = 1 := by
  rw [lineGoods, h]

/-- R77: no commission at the rate 0. -/
@[simp] theorem lineCommission_rate_zero (goods : Nat) : lineCommission goods 0 = 0 := by
  simp [lineCommission]

/-- R75: the largest gross. -/
theorem lineGross_le {price units stems : Nat} (hp : price ≤ 9999999) (hu : units ≤ 9999) (hs : stems ≤ 1000) :
    lineGross price units stems ≤ 9999999 * (9999 * 1000) :=
  Nat.mul_le_mul hp (Nat.mul_le_mul hu hs)

/-- R76: the largest goods. -/
theorem lineGoods_le {price units stems : Nat} (hp : price ≤ 9999999) (hu : units ≤ 9999) (hs : stems ≤ 1000) :
    lineGoods price units stems ≤ 9998999000100 := by
  have hgross := lineGross_le hp hu hs
  unfold lineGoods
  omega

/-- R77: the largest product of goods and rate. -/
theorem goods_mul_rate_le {goods rate : Nat} (hg : goods ≤ 9998999000100) (hr : rate ≤ 2500) :
    goods * rate ≤ 24997497500250000 :=
  Nat.mul_le_mul hg hr

/-- R77: the largest commission. -/
theorem lineCommission_le {goods rate : Nat} (hg : goods ≤ 9998999000100) (hr : rate ≤ 2500) :
    lineCommission goods rate ≤ 2499749750025 := by
  have hproduct := goods_mul_rate_le hg hr
  unfold lineCommission
  omega

/-! ### The total (R78) -/

/-- R78: the largest total. -/
theorem lineFigures_total_le {e : TariffEntry} {price units stems : Nat} (hp : price ≤ 9999999) (hu : units ≤ 9999)
    (hs : stems ≤ 1000) (hr : e.rate ≤ 2500) (hc : e.container ≤ 9999) (hf : e.lineFee ≤ 9999) :
    (lineFigures e price units stems).total ≤ 12498848740125 := by
  have hgoods := lineGoods_le hp hu hs
  calc (lineFigures e price units stems).total
      = lineGoods price units stems + lineCommission (lineGoods price units stems) e.rate + e.container * units + e.lineFee := rfl
    _ ≤ 9998999000100 + 2499749750025 + 9999 * 9999 + 9999 :=
        Nat.add_le_add (Nat.add_le_add (Nat.add_le_add hgoods (lineCommission_le hgoods hr)) (Nat.mul_le_mul hc hu)) hf
    _ = 12498848740125 := rfl

/-- Settles O11: the figures are those under the entry of the class; each largest value is reached from the one before it. -/
theorem lineFigures_of_reservation : Obligations.LineFigures := by
  refine ⟨fun a r es e ht he => ?goods, fun a r es e ht he => ?total⟩
  case goods =>
    intro gross f
    have hf : f = lineFigures e r.price r.quantity r.stems := Account.figures_of_entry ht he
    rw [hf]
    refine ⟨rfl, fun _ h => lineGoods_eq_zero h, lineGoods_of_five, lineGoods_le, rfl, fun h => ?unrated,
      fun hp hu hs hr => ?bounded⟩
    case unrated => simp [lineFigures, h]
    case bounded =>
      have hgoods := lineGoods_le hp hu hs
      have hproduct := goods_mul_rate_le hgoods hr
      exact ⟨hproduct, hproduct.trans_lt (by norm_num), lineCommission_le hgoods hr⟩
  case total =>
    intro f
    have hf : f = lineFigures e r.price r.quantity r.stems := Account.figures_of_entry ht he
    rw [hf]
    exact ⟨rfl, rfl, rfl, lineFigures_total_le⟩

end Sys2Proof.Machine
end

section
/-! An offered position in the cases of the statement (O35): no order that fires, one of them, and more than eight. -/

namespace Sys2Proof.Machine

section
variable {p : Part} {c : ClockId} {id price : Nat} {t : Lot} {picks : List Pick} {o : Order} {os pre post first late : List Order}

/-! ### The orders of a table that fire (R89) -/

theorem Order.meets_iff : o.meets t price = true ↔ (o.product = t.product ∧ price ≤ o.limit) ∧ o.fired = false := by
  simp [Order.meets]

/-- An order of another product, above its limit or fired already is not judged. -/
theorem Order.meets_eq_false (h : ¬ (o.product = t.product ∧ price ≤ o.limit) ∨ o.fired = true) : o.meets t price = false := by
  rw [Bool.eq_false_iff, Ne, Order.meets_iff]
  rintro ⟨hm, hf⟩
  exact h.elim (fun hn => hn hm) (fun ht => Bool.false_ne_true (hf.symm.trans ht))

theorem Order.fires_of_blocked (h : o.blocked = true) : o.fires t price = false := by simp [Order.fires, h]

theorem Order.fires_of_meets (hm : o.meets t price = true) (hb : o.blocked = false) : o.fires t price = true := by
  simp [Order.fires, hm, hb]

theorem filter_fires_of_none (h : ∀ x ∈ os, x.meets t price = false) : os.filter (fun x => x.fires t price) = [] :=
  List.filter_eq_nil_iff.mpr fun x hx => by simp [Order.fires, h x hx]

theorem map_judged_of_none (h : ∀ x ∈ os, x.meets t price = false) : os.map (fun x => x.judged t price) = os :=
  (List.map_congr_left fun x hx => if_neg (by simp [h x hx])).trans (List.map_id os)

/-- Of the others none fires. -/
theorem filter_fires_of_one (h : ∀ x ∈ pre ++ post, x.meets t price = false) :
    (pre ++ o :: post).filter (fun x => x.fires t price) = if o.fires t price then [o] else [] := by
  rw [List.filter_append, List.filter_cons, filter_fires_of_none fun x hx => h x (List.mem_append_left _ hx),
    filter_fires_of_none fun x hx => h x (List.mem_append_right _ hx)]
  rfl

/-- Only the order that meets its conditions is marked. -/
theorem map_judged_of_one (h : ∀ x ∈ pre ++ post, x.meets t price = false) (hm : o.meets t price = true) :
    (pre ++ o :: post).map (fun x => x.judged t price) = pre ++ { o with fired := true } :: post := by
  rw [List.map_append, List.map_cons, map_judged_of_none fun x hx => h x (List.mem_append_left _ hx),
    map_judged_of_none fun x hx => h x (List.mem_append_right _ hx), Order.judged, if_pos hm]

theorem filter_fires_of_all (h : ∀ x ∈ os, x.meets t price = true ∧ x.blocked = false) :
    os.filter (fun x => x.fires t price) = os :=
  List.filter_eq_self.mpr fun x hx => (h x hx).elim Order.fires_of_meets

theorem map_judged_of_all (h : ∀ x ∈ os, x.meets t price = true ∧ x.blocked = false) :
    os.map (fun x => x.judged t price) = os.map (fun x => { x with fired := true }) :=
  List.map_congr_left fun x hx => if_pos (h x hx).1

/-! ### What the offer comes to (R52, R53, R88, R90) -/

/-- The offer in a hall that is OPEN, by the orders that fire and the table they leave. -/
theorem Part.offers_of_fires {fs vs : List Order} (hv : (p.clocks.get c).run.hallView = .opened)
    (hfs : (p.clocks.get c).orders.filter (fun o => o.fires t (p.clocks.get c).run.price) = fs)
    (hvs : (p.clocks.get c).orders.map (fun o => o.judged t (p.clocks.get c).run.price) = vs) :
    p.offers c id t picks =
      if fs ≠ [] ∧ (p.clocks.get c).config.stopWindow = 0 then (p.fired c t fs vs).decides c id t picks else p.fired c t fs vs := by
  subst hfs hvs
  rw [Part.offers_eq]
  exact if_neg (not_not.mpr hv)

/-- An offer at which no order fires marks those of blocked buyers. -/
theorem Part.offers_of_none_fires {vs : List Order} (hv : (p.clocks.get c).run.hallView = .opened)
    (hfs : (p.clocks.get c).orders.filter (fun o => o.fires t (p.clocks.get c).run.price) = [])
    (hvs : (p.clocks.get c).orders.map (fun o => o.judged t (p.clocks.get c).run.price) = vs) :
    p.offers c id t picks = p.updClock c (fun k => { k with orders := vs }) := by
  rw [Part.offers_of_fires hv hfs hvs, if_neg fun h => h.1 rfl, Part.fired, if_pos rfl, Part.updClock,
    PerClock.upd_congr p.clocks c _ (fun k => { k with orders := vs }) rfl]
  rfl

/-- With no order that meets its conditions nothing happens. -/
theorem Part.offers_of_none_meets (hv : (p.clocks.get c).run.hallView = .opened)
    (h : ∀ o ∈ (p.clocks.get c).orders, o.meets t (p.clocks.get c).run.price = false) : p.offers c id t picks = p := by
  rw [Part.offers_of_none_fires hv (filter_fires_of_none h) (map_judged_of_none h), Part.updClock, PerClock.upd_eq_self _ _ _ rfl]

/-- One order that has fired: the window is open with its candidate, and the entry is reported. -/
theorem Part.fired_one (p : Part) (c : ClockId) (t : Lot) (o : Order) (os : List Order) :
    let k := p.clocks.get c
    p.fired c t [o] os = (p.enters c { k with
      state := .window, orders := os, candidates := [o.candidate t k.run (k.arrivals + 1)], arrivals := k.arrivals + 1,
      strideTimer := none, windowTimer := some (p.now + k.config.stopWindow) }).clockReport c (o.report c t k.run) := by
  intro k
  have htold : k.firedTold c t [o] = fun h => { h with clockReports := h.clockReports ++ [o.report c t k.run] } :=
    funext fun h => by simp [ClockUnit.firedTold]
  rw [Part.fired, if_neg (List.cons_ne_nil _ _), htold]
  rfl

/-- More orders than eight that have fired: the first eight are in the list, and the others are refused OUTBID behind their reports. -/
theorem Part.fired_eight (p : Part) (c : ClockId) (t : Lot) (os : List Order) (hl : first.length = 8) :
    let k := p.clocks.get c
    let xs := first.zipIdx.map (fun e => e.1.candidate t k.run (k.arrivals + 1 + e.2))
    p.fired c t (first ++ late) os = (p.enters c { k with
      state := .window, orders := os, candidates := xs, arrivals := k.arrivals + xs.length,
      strideTimer := none, windowTimer := some (p.now + k.config.stopWindow) }).updChannels c (fun h => { h with
        clockToAccount := h.clockToAccount ++ late.map (fun o => k.refusal c .outbid (o.candidate t k.run 0)),
        clockReports := h.clockReports ++ first.map (fun o => o.report c t k.run) ++
          late.flatMap (fun o => [o.report c t k.run, k.refusalReport c .outbid none (o.candidate t k.run 0)]) }) := by
  intro k xs
  have hne : first ++ late ≠ [] := List.append_ne_nil_of_left_ne_nil (List.ne_nil_of_length_pos (by omega)) late
  have htake : (first ++ late).take 8 = first := List.take_left' hl
  have hdrop : (first ++ late).drop 8 = late := List.drop_left' hl
  have htold : k.firedTold c t (first ++ late) = fun h => { h with
      clockToAccount := h.clockToAccount ++ late.map (fun o => k.refusal c .outbid (o.candidate t k.run 0)),
      clockReports := h.clockReports ++ first.map (fun o => o.report c t k.run) ++
        late.flatMap (fun o => [o.report c t k.run, k.refusalReport c .outbid none (o.candidate t k.run 0)]) } :=
    funext fun h => by simp only [ClockUnit.firedTold, htake, hdrop]
  rw [Part.fired, if_neg hne, htold]
  simp only [ClockUnit.firedBy, htake, xs, List.length_map, List.length_zipIdx, k]

end

/-- Settles O35: a stride (O34) and a run start (O33) come to the offer, whose orders that fire are none, one, or all of the table. -/
theorem orderFires : Obligations.OrderFires := by
  intro c id n t tr s k hok hlot ht hn htr hopen meets offered
  have hoffered : ∀ (answer : State → Prop) (p : Part), (p.clocks.get c).run.hallView = .opened →
      answer (s.after (p.offers c id t tr.picks)) → offered answer p := by
    intro answer p hv hanswer
    have hgives : ∀ {q}, p.offers c id t tr.picks = q → answer (s.after q) := fun hq => hq ▸ hanswer
    refine ⟨fun hnone => hgives (Part.offers_of_none_meets hv fun o ho => Order.meets_eq_false (hnone o ho)), ?one, ?eight⟩
    case one =>
      intro pre o post hos hothers hm hf orders x q opened
      have hmeets : o.meets t (p.clocks.get c).run.price = true := Order.meets_iff.mpr ⟨hm, hf⟩
      have hnone : ∀ y ∈ pre ++ post, y.meets t (p.clocks.get c).run.price = false := fun y hy =>
        Order.meets_eq_false (hothers y hy)
      have hfires := (congrArg (List.filter _) hos).trans (filter_fires_of_one (o := o) hnone)
      have hfired := fun hb => hfires.trans (if_pos (Order.fires_of_meets hmeets hb))
      have hjudged := (congrArg (List.map _) hos).trans (map_judged_of_one hnone hmeets)
      have hopened : p.fired c t [o] orders = opened := Part.fired_one p c t o orders
      refine ⟨fun hb => hgives ?blocked, fun hb hw => hgives ?opens, fun hb hw => hgives ?decides⟩
      case blocked =>
        exact Part.offers_of_none_fires hv (hfires.trans (by simp [Order.fires_of_blocked hb])) hjudged
      case opens =>
        rw [Part.offers_of_fires hv (hfired hb) hjudged, if_neg fun h => hw h.2]
        exact hopened
      case decides =>
        rw [Part.offers_of_fires hv (hfired hb) hjudged, if_pos ⟨List.cons_ne_nil _ _, hw⟩]
        exact congrArg (fun q : Part => q.decides c id t tr.picks) hopened
    case eight =>
      intro first late hos hl hw hall xs q
      have hmeets : ∀ y ∈ (p.clocks.get c).orders, y.meets t (p.clocks.get c).run.price = true ∧ y.blocked = false := fun y hy => by
        obtain ⟨hm, hf, hb⟩ := hall y hy
        exact ⟨Order.meets_iff.mpr ⟨hm, hf⟩, hb⟩
      refine hgives ?_
      rw [Part.offers_of_fires hv ((filter_fires_of_all hmeets).trans hos) (map_judged_of_all hmeets), if_neg fun h => hw h.2]
      exact Part.fired_eight p c t _ hl
  refine ⟨fun w hpin htimer hl => ?strides, fun w start hpin hs htimer hceil hprice => ?delay⟩
  case strides =>
    intro reached price
    have hview : ∀ st price dwell, ((reached.strides c st price dwell).clocks.get c).run.hallView = .opened := fun st price dwell => by
      rw [Part.strides_get]; exact hopen
    obtain ⟨-, hruns, -, hdwells⟩ := strideEnds c id n w t tr s hpin hok htimer hlot ht hn htr
    refine ⟨fun hs => ?running, fun hs hd => ?floor⟩
    case running => exact hoffered (fun u => exec (.strideEnd c) s = .next u) _ (hview _ _ _) (hruns hs hl)
    case floor => exact hoffered (fun u => exec (.strideEnd c) s = .next u) _ (hview _ _ _) (hdwells hs hl hd)
  case delay =>
    refine hoffered (fun u => exec (.restartDelayEnd c) s = .next u) _ ?view ?answer
    case view => rw [Part.runStarts_eq, Part.enters_get]; exact hopen
    case answer =>
      obtain ⟨-, hdelay⟩ := runStarts c id n t tr s
      exact hdelay w start hpin hok hs htimer hlot ht hn htr hceil hprice

end Sys2Proof.Machine
end

section
/-! A placement (O46), and cancels, buyer notices and end requests (O47). -/

namespace Sys2Proof.Machine

section
variable {p : Part} {c : ClockId} {k : ClockUnit} {n : Nat}

/-! ### The number a placement takes is the first that is free (R84) -/

/-- The search passes over held numbers alone. -/
theorem ClockUnit.freeNumber_eq_iterate (k : ClockUnit) (tries n : Nat) :
    ∃ j, k.freeNumber tries n = next16^[j] n ∧ ∀ i, i < j → k.numberHeld (next16^[i] n) = true := by
  induction tries generalizing n with
  | zero => exact ⟨0, rfl, fun i hi => absurd hi (Nat.not_lt_zero i)⟩
  | succ tries ih =>
    rw [ClockUnit.freeNumber]
    split
    · next hn =>
      obtain ⟨j, hj, hheld⟩ := ih (next16 n)
      refine ⟨j + 1, hj, fun i hi => ?_⟩
      cases i with
      | zero => exact hn
      | succ i => exact hheld i (Nat.lt_of_succ_lt_succ hi)
    · exact ⟨0, rfl, fun i hi => absurd hi (Nat.not_lt_zero i)⟩

/-- The numbers held are those of the orders and those that candidates name. -/
theorem ClockUnit.numberHeld_iff_named : k.numberHeld n = true ↔
    n ∈ k.orders.map Order.number ∨ CandOrigin.order n ∈ k.candidates.map Candidate.origin := by
  have hname : ∀ x : Candidate, x.origin.number = some n ↔ x.origin = .order n := fun x => by
    cases x.origin <;> simp [CandOrigin.number]
  rw [ClockUnit.numberHeld_iff, ClockUnit.heldNumbers, List.mem_append, List.mem_filterMap, List.mem_map (l := k.candidates)]
  simp only [hname]

theorem ClockUnit.takeNumber_firstFree (ho : k.orders.length ≤ Config.maxOrders) (hx : k.candidates.length ≤ Config.maxCandidates)
    (hn : 1 ≤ k.nextOrder ∧ k.nextOrder ≤ Config.maxCount16) : FirstFree
      (fun i => i ∈ k.orders.map Order.number ∨ CandOrigin.order i ∈ k.candidates.map Candidate.origin) k.nextOrder k.takeNumber := by
  obtain ⟨j, hj, hheld⟩ := k.freeNumber_eq_iterate (Config.maxOrders + Config.maxCandidates + 1) k.nextOrder
  refine ⟨j, hj, fun hnamed => ?_, fun i hi => ClockUnit.numberHeld_iff_named.mp (hheld i hi)⟩
  exact ne_true_of_eq_false (ClockUnit.takeNumber_free ho hx hn) (ClockUnit.numberHeld_iff_named.mpr hnamed)

/-! ### A buyer's order (R84) -/

theorem ClockUnit.orderOf_eq_none {buyer : Nat} (h : ∀ o ∈ k.orders, o.buyer ≠ buyer) : k.orderOf buyer = none :=
  List.find?_eq_none.mpr fun o ho he => h o ho (of_decide_eq_true he)

/-- An order that ends leaves the table and is told. -/
theorem endOrder_eq (c : ClockId) (o : Order) (reason : EndReason) (target : DeskTarget) (tag : Option Nat) (p : Part) :
    endOrder c o reason target tag p =
      (p.updClock c (fun k => { k with orders := k.orders.filter (fun x => decide (x.number ≠ o.number)) })).toAccount c
        (o.ended c reason o.count target tag) := rfl

/-! ### Placing an order (R84, R86) -/

variable {h : PlacementHandover} {o : Order}

theorem takePlacement_append (hb : ∀ o ∈ (p.clocks.get c).orders, o.buyer ≠ h.buyer)
    (hroom : (p.clocks.get c).orders.length < Config.maxOrders) : takePlacement c h p = appendOrder c h none p := by
  rw [takePlacement, ClockUnit.orderOf_eq_none hb]
  exact if_pos hroom

theorem takePlacement_full (hb : ∀ o ∈ (p.clocks.get c).orders, o.buyer ≠ h.buyer)
    (hfull : Config.maxOrders ≤ (p.clocks.get c).orders.length) : takePlacement c h p = refusePlacement c h p := by
  rw [takePlacement, ClockUnit.orderOf_eq_none hb]
  exact if_neg (Nat.not_lt.mpr hfull)

theorem takePlacement_replace (ho : (p.clocks.get c).orderOf h.buyer = some o) :
    takePlacement c h p = appendOrder c h (some o.number) (endOrder c o .replaced o.target none p) := by
  rw [takePlacement, ho]

/-- A new order behind the orders `os` of a Clock Unit, under the number it takes. -/
theorem appendOrder_eq {os : List Order} {replaced : Option Nat} (ho : (p.clocks.get c).orders = os)
    (hn : (p.clocks.get c).takeNumber = n) : appendOrder c h replaced p =
      (p.updClock c (fun k => { k with orders := os ++ [h.order n], nextOrder := next16 n })).toAccount c
        (.reply h.target h.tag (.placed (h.placed c n replaced))) := by
  subst ho hn
  simp only [appendOrder, Part.updClock]
  rw [PerClock.upd_congr p.clocks c _ (fun k => { k with
    orders := (p.clocks.get c).orders ++ [h.order (p.clocks.get c).takeNumber], nextOrder := next16 (p.clocks.get c).takeNumber }) rfl]

end

/-- Settles O46: with no order of the buyer the table has room or is full; else the buyer's order ends first. -/
theorem orderPlaced : Obligations.OrderPlaced := by
  intro c h rest s hpin hfirst k hok order placed becomes free
  let taken : Part := { s.part with channels := s.part.channels.upd c (fun x => { x with accountToClock := rest }) }
  have hfits := hok.soon.fits
  have hrange : 1 ≤ k.nextOrder ∧ k.nextOrder ≤ Config.maxCount16 := ⟨hfits.orders.nextPos, hfits.orders.nextMax⟩
  refine ⟨fun hb => ⟨fun hroom => ⟨k.takeNumber, ?free, takeFromAccount_gives hpin hfirst rfl ?appended⟩,
    fun hfull => ⟨if Config.placementIsPressed then .pressed else .order 0, takeFromAccount_gives hpin hfirst rfl ?full⟩⟩,
    fun o ho => ?replaced⟩
  case free => exact ClockUnit.takeNumber_firstFree hfits.orders.room hfits.list.room hrange
  case appended =>
    rw [takePlacement_append (p := taken) hb hroom, appendOrder_eq (p := taken) rfl rfl]
    simp only [Part.toAccount, Part.updChannels, Part.updClock, taken, PerClock.upd_upd]
    rfl
  case full =>
    rw [takePlacement_full (p := taken) hb hfull]
    simp only [refusePlacement, Part.toAccount, Part.updChannels, taken, PerClock.upd_upd]
  case replaced =>
    intro others
    let left : ClockUnit := { k with orders := others }
    have hroom : left.orders.length ≤ Config.maxOrders := (List.length_filter_le _ _).trans hfits.orders.room
    have hended : (endOrder c o .replaced o.target none taken).clocks.get c = left := PerClock.get_upd_self _ _ _
    refine ⟨left.takeNumber, ClockUnit.takeNumber_firstFree (k := left) hroom hfits.list.room hrange,
      takeFromAccount_gives hpin hfirst rfl ?_⟩
    rw [takePlacement_replace (p := taken) ho, appendOrder_eq (os := others) (n := left.takeNumber) (by rw [hended]) (by rw [hended]),
      endOrder_eq]
    simp only [Part.toAccount, Part.updChannels, Part.updClock, taken, PerClock.upd_upd, List.append_assoc]
    rfl

section
variable {p : Part} {c : ClockId} {buyer : Nat} {target : DeskTarget} {o : Order}

/-! ### Cancels, buyer notices and end requests (R87, R94, R95) -/

theorem takeCancel_held {tag : Option Nat} (h : (p.clocks.get c).orderOf buyer = some o) :
    takeCancel c buyer target tag p = endOrder c o .cancelled target tag p := by
  rw [takeCancel, h]

theorem takeCancel_none {tag : Option Nat} (h : (p.clocks.get c).orderOf buyer = none) :
    takeCancel c buyer target tag p = p.toAccount c (.reply target tag .noOrder) := by
  rw [takeCancel, h]

theorem takeEndRequest_held {target : Option DeskTarget} (h : (p.clocks.get c).orderOf buyer = some o) :
    takeEndRequest c buyer target p = endOrder c o .logout (target.getD o.target) none p := by
  rw [takeEndRequest, h]

theorem takeEndRequest_none {target : Option DeskTarget} (h : (p.clocks.get c).orderOf buyer = none) :
    takeEndRequest c buyer target p = p := by
  rw [takeEndRequest, h]

variable {v : NoticeHandover}

theorem takeNotice_none (h : (p.clocks.get c).orderOf v.buyer = none) : takeNotice c v p = p := by
  rw [takeNotice, h]

theorem takeNotice_leaves (h : (p.clocks.get c).orderOf v.buyer = some o) (hm : v.members.get c = false) :
    takeNotice c v p = endOrder c o .notMember o.target none p := by
  rw [takeNotice, h]
  exact if_pos hm

theorem takeNotice_stays (h : (p.clocks.get c).orderOf v.buyer = some o) (hm : v.members.get c = true) :
    takeNotice c v p = p.updClock c (fun k =>
      { k with orders := k.orders.map (fun x => if x.buyer = v.buyer then x.notified v else x) }) := by
  rw [takeNotice, h]
  exact if_neg (ne_false_of_eq_true hm)

end

/-- Settles O47: each hand-over finds the order of its buyer, which ends or is changed in place, or finds none. -/
theorem ordersEndAndChange : Obligations.OrdersEndAndChange := by
  intro c rest s hpin k first becomes order without noOrder
  let taken : Part := { s.part with channels := s.part.channels.upd c (fun h => { h with accountToClock := rest }) }
  have hbecomes : ∀ {f : ClockUnit → ClockUnit} {os ms}, f k = { k with orders := os } →
      (taken.updClock c f).updChannels c (fun h => { h with clockToAccount := h.clockToAccount ++ ms }) = (becomes os ms).part :=
    fun {f os ms} hf => by
      simp only [becomes, State.after, Part.updChannels, Part.updClock, taken, PerClock.upd_upd]
      rw [PerClock.upd_congr s.part.clocks c f (fun x => { x with orders := os }) hf]
  have hended : ∀ (o : Order) reason target tag, endOrder c o reason target tag taken =
      (becomes (without o) [o.ended c reason o.count target tag]).part := fun _ _ _ _ => hbecomes rfl
  have hquiet : ∀ {f : ClockUnit → ClockUnit} {os}, f k = { k with orders := os } →
      taken.updClock c f = (becomes os []).part := fun {f os} hf => by
    refine Eq.trans ?_ (hbecomes (ms := []) hf)
    simp only [List.append_nil, Part.updChannels, PerClock.upd_eq_self]
  have hself : taken.updClock c id = taken := by rw [Part.updClock, PerClock.upd_eq_self _ _ _ rfl]
  have hsame : taken = (becomes k.orders []).part := hself.symm.trans (hquiet rfl)
  refine ⟨fun buyer target tag h => ⟨fun o ho => takeFromAccount_gives hpin h rfl ?cancelled,
      fun hno => takeFromAccount_gives hpin h rfl ?noOrder⟩,
    fun v h => ⟨fun o ho hm => takeFromAccount_gives hpin h rfl ?notMember,
      fun o ho hm => takeFromAccount_gives hpin h rfl ?notified, fun hno => takeFromAccount_gives hpin h rfl ?unheard⟩,
    fun buyer target h => ⟨fun o ho => takeFromAccount_gives hpin h rfl ?logout,
      fun hno => takeFromAccount_gives hpin h rfl ?nothing⟩⟩
  case cancelled => exact (takeCancel_held (p := taken) ho).trans (hended ..)
  case noOrder =>
    refine (takeCancel_none (p := taken) (ClockUnit.orderOf_eq_none hno)).trans ?_
    exact (congrArg (fun q : Part => q.toAccount c _) hself.symm).trans (hbecomes rfl)
  case notMember => exact (takeNotice_leaves (p := taken) ho hm).trans (hended ..)
  case notified => exact (takeNotice_stays (p := taken) ho hm).trans (hquiet rfl)
  case unheard => exact (takeNotice_none (p := taken) (ClockUnit.orderOf_eq_none hno)).trans hsame
  case logout => exact (takeEndRequest_held (p := taken) ho).trans (hended ..)
  case nothing => exact (takeEndRequest_none (p := taken) (ClockUnit.orderOf_eq_none hno)).trans hsame

end Sys2Proof.Machine
end

section
/-! The invoices and the credit of the Account Unit in agreement (R97, R98, R116, R118 to R123, R125, R128, R129), in parts: the pool
and the store, the credit of the buyers, what the two lists name, and the phases of the settlement queue. -/

namespace Sys2Proof.Machine

/-! ### Reading the pool (R121, R122) -/

section
variable {a b : Account} {n : InvoiceNumber} {v : Invoice} {g : Invoice → Invoice}

theorem Account.invoice_eq_none : a.invoice n = none ↔ ∀ v ∈ a.invoices, v.number ≠ n := by
  simp [Account.invoice]

theorem Account.mem_of_invoice (h : a.invoice n = some v) : v ∈ a.invoices ∧ v.number = n :=
  ⟨List.mem_of_find?_eq_some h, by simpa using List.find?_some h⟩

theorem eq_of_number_eq {vs : List Invoice} (hn : (vs.map Invoice.number).Nodup) {w : Invoice} (hv : v ∈ vs) (hw : w ∈ vs)
    (h : v.number = w.number) : v = w :=
  List.inj_on_of_nodup_map hn hv hw h

/-- With no number given twice, the invoice of a number is the one that carries it. -/
theorem Account.invoice_eq_some (hn : (a.invoices.map Invoice.number).Nodup) :
    a.invoice n = some v ↔ v ∈ a.invoices ∧ v.number = n := by
  refine ⟨Account.mem_of_invoice, fun ⟨hv, he⟩ => ?_⟩
  cases h : a.invoice n with
  | none => exact absurd he (Account.invoice_eq_none.mp h v hv)
  | some w =>
    obtain ⟨hw, hwn⟩ := Account.mem_of_invoice h
    rw [eq_of_number_eq hn hw hv (hwn.trans he.symm)]

/-- A change of the invoices that keeps their numbers, read at a number. -/
theorem Account.invoice_of_map (hb : b.invoices = a.invoices.map g) (hg : ∀ v, (g v).number = v.number) (n : InvoiceNumber) :
    b.invoice n = (a.invoice n).map g := by
  simp [Account.invoice, hb, List.find?_map, hg]

/-- The invoices of a list of numbers, after such a change. -/
theorem Account.invoices_of_map (hb : b.invoices = a.invoices.map g) (hg : ∀ v, (g v).number = v.number)
    (ns : List InvoiceNumber) : ns.filterMap b.invoice = (ns.filterMap a.invoice).map g := by
  rw [List.map_filterMap]
  exact congrArg (fun f => List.filterMap f ns) (funext fun n => Account.invoice_of_map hb hg n)

theorem numbers_map {vs : List Invoice} (hg : ∀ v, (g v).number = v.number) :
    (vs.map g).map Invoice.number = vs.map Invoice.number := by
  simp [List.map_map, Function.comp_def, hg]

end

/-! ### The pool and the store (R116, R119 to R121, R123) -/

/-- An invoice and the lines that the store holds of it. -/
structure Account.Bills (a : Account) (v : Invoice) : Prop where
  fits : v.lines.length ≤ 48
  filed : ∀ i ∈ v.lines, ∃ x, Table.find a.lines i = some x ∧ x.invoice = v.number
  total : v.total = ((a.linesOf v).map Line.total).sum
  numbered : (a.linesOf v).map Line.number = (List.range v.lines.length).map (fun i => i + 1)

/-- The pool and the store agree. While a line is filed the invoice in hand may hold no line yet, or 48. -/
structure Account.PoolOk (hand : Option InvoiceNumber) (a : Account) : Prop where
  numbers : (a.invoices.map Invoice.number).Nodup
  places : (a.invoices.flatMap Invoice.lines).Nodup
  owned : ∀ e ∈ a.lines, ∃ v ∈ a.invoices, v.number = e.2.invoice ∧ e.1 ∈ v.lines
  bills : ∀ v ∈ a.invoices, a.Bills v
  sized : ∀ v ∈ a.invoices, hand ≠ some v.number → 1 ≤ v.lines.length ∧ (v.state = .opened → v.lines.length < 48)

theorem Account.linesOk_iff {a : Account} :
    a.LinesOk ↔ a.PoolOk none ∧ a.storeLow = decide (4096 - a.lines.length < 64) := by
  have hfiled : ∀ v : Invoice, (∀ i ∈ v.lines, ∃ x ∈ (a.lines.find i).toList, x.invoice = v.number) ↔
      ∀ i ∈ v.lines, ∃ x, Table.find a.lines i = some x ∧ x.invoice = v.number := by simp
  constructor
  · rintro ⟨hnumbers, hplaces, howned, hall, hlow⟩
    refine ⟨⟨hnumbers, hplaces, howned, fun v hv => ?_, fun v hv _ => ?_⟩, hlow⟩
    · obtain ⟨-, hfits, -, hf, ht, hn⟩ := hall v hv
      exact ⟨hfits, (hfiled v).mp hf, ht, hn⟩
    · obtain ⟨hone, -, hopen, -⟩ := hall v hv
      exact ⟨hone, hopen⟩
  · rintro ⟨⟨hnumbers, hplaces, howned, hbills, hsized⟩, hlow⟩
    refine ⟨hnumbers, hplaces, howned, fun v hv => ?_, hlow⟩
    obtain ⟨hfits, hf, ht, hn⟩ := hbills v hv
    obtain ⟨hone, hopen⟩ := hsized v hv (by simp)
    exact ⟨hone, hfits, hopen, (hfiled v).mpr hf, ht, hn⟩

/-- The invoices change in their states and marks alone, and none is OPEN again. -/
theorem Account.PoolOk.map {a b : Account} {hand : Option InvoiceNumber} {g : Invoice → Invoice} (h : a.PoolOk hand)
    (hb : b.invoices = a.invoices.map g) (hl : b.lines = a.lines)
    (hg : ∀ v, (g v).number = v.number ∧ (g v).lines = v.lines ∧ (g v).total = v.total)
    (ho : ∀ v ∈ a.invoices, (g v).state = .opened → v.state = .opened) : b.PoolOk hand := by
  have hlines : ∀ v, b.linesOf (g v) = a.linesOf v := fun v => by rw [Account.linesOf, Account.linesOf, (hg v).2.1, hl]
  refine ⟨?_, ?_, fun e he => ?_, fun w hw => ?_, fun w hw hhand => ?_⟩
  · rw [hb, numbers_map fun v => (hg v).1]
    exact h.numbers
  · simpa [hb, List.flatMap_map, hg] using h.places
  · obtain ⟨v, hv, hn, hi⟩ := h.owned e (hl ▸ he)
    exact ⟨g v, hb ▸ List.mem_map_of_mem hv, (hg v).1.trans hn, (hg v).2.1.symm ▸ hi⟩
  · obtain ⟨v, hv, rfl⟩ := List.mem_map.mp (hb ▸ hw)
    obtain ⟨hfits, hf, ht, hn⟩ := h.bills v hv
    obtain ⟨gn, gl, gt⟩ := hg v
    exact ⟨gl ▸ hfits, by rwa [gl, gn, hl], by rw [gt, hlines, ht], by rw [hlines, gl, hn]⟩
  · obtain ⟨v, hv, rfl⟩ := List.mem_map.mp (hb ▸ hw)
    obtain ⟨gn, gl, -⟩ := hg v
    obtain ⟨hone, hopen⟩ := h.sized v hv (gn ▸ hhand)
    exact ⟨gl ▸ hone, fun hs => gl ▸ hopen (ho v hv hs)⟩

/-! ### The credit of a buyer (R97, R98, R122) -/

/-- The lines of the store that a buyer owes. -/
def Account.owed (a : Account) (u : Nat) : List Line := a.lines.vals.filter (fun x => decide (x.invoice.buyer = u))

/-- A buyer's record agrees with the lines, the open list and the pool. -/
structure Account.Credits (a : Account) (u : Nat) (b : Buyer) : Prop where
  exposure : b.exposure = ((a.owed u).map Line.total).sum
  lines : b.lines = (a.owed u).length
  opened : b.openInvoice = a.openList.find? (fun n => decide (n.buyer = u))
  sequence : a.invoice ⟨a.hall.day, u, b.sequence⟩ = none

theorem Account.creditOk_iff {a : Account} :
    a.CreditOk ↔ (∀ v ∈ a.invoices, a.buyers.has v.number.buyer = true) ∧ ∀ e ∈ a.buyers, a.Credits e.1 e.2 := by
  refine and_congr_right fun _ => forall₂_congr fun e _ => ⟨?_, ?_⟩
  · rintro ⟨h1, h2, h3, h4⟩
    exact ⟨h1, h2, h3, h4⟩
  · rintro ⟨h1, h2, h3, h4⟩
    exact ⟨h1, h2, h3, h4⟩

theorem Account.invoice_none_of_numbers {a b : Account} (h : b.invoices.map Invoice.number = a.invoices.map Invoice.number)
    (n : InvoiceNumber) : b.invoice n = none ↔ a.invoice n = none := by
  simpa [Account.invoice_eq_none] using iff_of_eq (congrArg (n ∉ ·) h)

/-- What a buyer's credit is read from. -/
theorem Account.Credits.of_same {a b : Account} {u : Nat} {r t : Buyer} (h : a.Credits u r)
    (hr : (t.exposure, t.lines, t.openInvoice, t.sequence) = (r.exposure, r.lines, r.openInvoice, r.sequence))
    (hl : b.lines = a.lines) (ho : b.openList = a.openList) (hd : b.hall.day = a.hall.day)
    (hn : b.invoices.map Invoice.number = a.invoices.map Invoice.number) : b.Credits u t := by
  simp only [Prod.mk.injEq] at hr
  obtain ⟨h1, h2, h3, h4⟩ := hr
  have howed : b.owed u = a.owed u := by rw [Account.owed, Account.owed, hl]
  refine ⟨?_, ?_, ?_, ?_⟩
  · rw [h1, howed, h.exposure]
  · rw [h2, howed, h.lines]
  · rw [h3, ho, h.opened]
  · rw [h4, hd, Account.invoice_none_of_numbers hn, h.sequence]

/-- The credit of an account whose buyers, lines, open list, day and numbers of invoices are the same. -/
theorem Account.CreditOk.of_same {a b : Account} (h : a.CreditOk) (hb : b.buyers = a.buyers) (hl : b.lines = a.lines)
    (ho : b.openList = a.openList) (hd : b.hall.day = a.hall.day)
    (hn : b.invoices.map Invoice.number = a.invoices.map Invoice.number) : b.CreditOk := by
  obtain ⟨hhas, hcred⟩ := Account.creditOk_iff.mp h
  refine Account.creditOk_iff.mpr ⟨fun v hv => ?_, fun e he => (hcred e (hb ▸ he)).of_same rfl hl ho hd hn⟩
  obtain ⟨w, hw, he⟩ := List.mem_map.mp (hn ▸ List.mem_map_of_mem (f := Invoice.number) hv)
  rw [hb, ← he]
  exact hhas w hw

/-! ### What the open list and the settlement queue name (R121, R125, R128) -/

structure Account.Listed (a : Account) : Prop where
  opens : a.openList = (a.invoices.filter (fun v => decide (v.state = .opened))).map Invoice.number
  once : (a.openList.map InvoiceNumber.buyer).Nodup
  queueNodup : a.settleQueue.Nodup
  queued : ∀ v ∈ a.invoices, v.number ∈ a.settleQueue ↔ v.state ≠ .opened
  caused : ∀ v ∈ a.invoices, v.cause = none ↔ v.state = .opened
  named : ∀ n ∈ a.settleQueue, (a.invoice n).isSome = true

/-- The invoices change in their states and marks, and none in being OPEN. -/
theorem Account.Listed.map {a b : Account} {g : Invoice → Invoice} (h : a.Listed) (hb : b.invoices = a.invoices.map g)
    (ho : b.openList = a.openList) (hq : b.settleQueue = a.settleQueue)
    (hg : ∀ v, (g v).number = v.number ∧ (g v).cause = v.cause)
    (hs : ∀ v ∈ a.invoices, (g v).state = .opened ↔ v.state = .opened) : b.Listed := by
  refine ⟨?_, ho ▸ h.once, hq ▸ h.queueNodup, fun w hw => ?_, fun w hw => ?_, fun n hn => ?_⟩
  · have hopen : a.invoices.filter ((fun v => decide (v.state = .opened)) ∘ g) =
        a.invoices.filter (fun v => decide (v.state = .opened)) := List.filter_congr fun v hv => by simp [hs v hv]
    rw [ho, h.opens, hb, List.filter_map, hopen, List.map_map]
    exact List.map_congr_left fun v _ => (hg v).1.symm
  · obtain ⟨v, hv, rfl⟩ := List.mem_map.mp (hb ▸ hw)
    rw [(hg v).1, hq, h.queued v hv, ne_eq, ne_eq, hs v hv]
  · obtain ⟨v, hv, rfl⟩ := List.mem_map.mp (hb ▸ hw)
    rw [(hg v).2, h.caused v hv, hs v hv]
  · rw [Account.invoice_of_map hb (fun v => (hg v).1), Option.isSome_map]
    exact h.named n (hq ▸ hn)

/-- The queue names each of its invoices once. -/
theorem Account.Listed.queueNumbers {a : Account} (h : a.Listed) :
    (a.settleQueue.filterMap a.invoice).map Invoice.number = a.settleQueue := by
  rw [List.map_filterMap]
  refine (List.filterMap_congr (g := some) fun n hn => ?_).trans List.filterMap_some
  obtain ⟨v, hv⟩ := Option.isSome_iff_exists.mp (h.named n hn)
  rw [hv, Option.map_some, (Account.mem_of_invoice hv).2]

/-! ### The phases of the settlement queue (R128, R129) -/

/-- The cursor stands in an invoice: at its header, or behind some of its lines. -/
def Cursor.StandsIn (k : Cursor) (v : Invoice) : Prop :=
  v.number = k.invoice ∧ if k.headerDue then k.placed = 0 else k.placed < v.lines.length

/-- The queue: first the AWAITING invoices, then the SENDING one if the cursor stands in one, then the CLOSED ones. -/
structure Account.Phases (a : Account) (sent current due : List Invoice) : Prop where
  queue : a.settleQueue.filterMap a.invoice = sent ++ current ++ due
  areSent : ∀ v ∈ sent, v.state = .awaiting
  isCurrent : ∀ v ∈ current, v.state = .sending
  areDue : ∀ v ∈ due, v.state = .closed
  cursor : List.Forall₂ Cursor.StandsIn a.cursor.toList current

/-- The order of two invoices of the settlement queue. -/
def Invoice.Before (x y : Invoice) : Prop := x.rank < y.rank ∨ (x.rank = y.rank ∧ x.state ≠ .sending)

theorem Invoice.before_of_awaiting {x : Invoice} (hx : x.state = .awaiting) (y : Invoice) : x.Before y := by
  cases hy : y.state <;> simp [Invoice.Before, Invoice.rank, hx, hy]

theorem Invoice.before_closed {x y : Invoice} (hx : x.state ≠ .opened) (hy : y.state = .closed) : x.Before y := by
  cases hs : x.state <;> simp_all [Invoice.Before, Invoice.rank]

/-- Behind an invoice that is not AWAITING all are CLOSED. -/
theorem Invoice.Before.closed {x y : Invoice} (h : x.Before y) (hx : x.state = .sending ∨ x.state = .closed)
    (hy : y.state ≠ .opened) : y.state = .closed := by
  rcases hx with hx | hx <;> cases hs : y.state <;> simp_all [Invoice.Before, Invoice.rank]

/-- A list in the order of the queue falls into the three phases, the middle one of one invoice at most. -/
theorem phases_of_pairwise {vs : List Invoice} (hp : vs.Pairwise Invoice.Before) (ho : ∀ v ∈ vs, v.state ≠ .opened) :
    ∃ sent current due, vs = sent ++ current ++ due ∧ (∀ v ∈ sent, v.state = .awaiting) ∧ (∀ v ∈ current, v.state = .sending) ∧
      (∀ v ∈ due, v.state = .closed) ∧ current.length ≤ 1 := by
  induction vs with
  | nil => exact ⟨[], [], [], by simp⟩
  | cons v rest ih =>
    obtain ⟨hv, hrest⟩ := List.pairwise_cons.mp hp
    rw [List.forall_mem_cons] at ho
    cases hs : v.state with
    | opened => exact absurd hs ho.1
    | closed =>
      refine ⟨[], [], v :: rest, rfl, by simp, by simp, List.forall_mem_cons.mpr ⟨hs, fun w hw => ?_⟩, by simp⟩
      exact (hv w hw).closed (.inr hs) (ho.2 w hw)
    | sending => exact ⟨[], [v], rest, rfl, by simp, by simp [hs], fun w hw => (hv w hw).closed (.inl hs) (ho.2 w hw), by simp⟩
    | awaiting =>
      obtain ⟨sent, current, due, rfl, hsent, hcur, hdue, hone⟩ := ih hrest ho.2
      exact ⟨v :: sent, current, due, rfl, List.forall_mem_cons.mpr ⟨hs, hsent⟩, hcur, hdue, hone⟩

theorem Account.Phases.pairwise {a : Account} {sent current due : List Invoice} (h : a.Phases sent current due) :
    (a.settleQueue.filterMap a.invoice).Pairwise Invoice.Before := by
  have hone : current.length ≤ 1 := h.cursor.length_eq ▸ by cases a.cursor <;> simp
  have hclosed : ∀ v ∈ due, v.state ≠ .opened := fun v hv => by simp [h.areDue v hv]
  rw [h.queue, List.append_assoc, List.pairwise_append, List.pairwise_append]
  refine ⟨List.pairwise_of_forall_mem_list fun x hx y _ => Invoice.before_of_awaiting (h.areSent x hx) y, ⟨?_, ?_, ?_⟩, ?_⟩
  · match current, hone with
    | [], _ => exact .nil
    | [v], _ => exact List.pairwise_singleton _ v
  · exact List.pairwise_of_forall_mem_list fun x hx y hy => Invoice.before_closed (hclosed x hx) (h.areDue y hy)
  · exact fun x hx y hy => Invoice.before_closed (by simp [h.isCurrent x hx]) (h.areDue y hy)
  · exact fun x hx y _ => Invoice.before_of_awaiting (h.areSent x hx) y

/-- The invoices that R129 sends next. -/
theorem Account.Phases.due_eq {a : Account} {sent current due : List Invoice} (h : a.Phases sent current due) : a.due = due := by
  rw [Account.due, h.queue, List.filter_append, List.filter_append, List.filter_eq_nil_iff.mpr, List.filter_eq_nil_iff.mpr,
    List.filter_eq_self.mpr]
  · rfl
  · exact fun v hv => by simp [h.areDue v hv]
  · exact fun v hv => by simp [h.isCurrent v hv]
  · exact fun v hv => by simp [h.areSent v hv]

theorem Account.queueOk_iff {a : Account} (hn : (a.invoices.map Invoice.number).Nodup) :
    a.QueueOk ↔ a.Listed ∧ ∃ sent current due, a.Phases sent current due := by
  have hmem : a.Listed → ∀ v, v ∈ a.settleQueue.filterMap a.invoice ↔ v ∈ a.invoices ∧ v.state ≠ .opened := by
    refine fun hl v => List.mem_filterMap.trans ⟨?_, fun ⟨hv, hs⟩ => ?_⟩
    · rintro ⟨n, hq, hv⟩
      obtain ⟨hm, rfl⟩ := Account.mem_of_invoice hv
      exact ⟨hm, (hl.queued v hm).mp hq⟩
    · exact ⟨v.number, (hl.queued v hv).mpr hs, (Account.invoice_eq_some hn).mpr ⟨hv, rfl⟩⟩
  constructor
  · rintro ⟨hopens, honce, hnodup, hall, hnamed, hsorted, hidle, hbusy⟩
    have hl : a.Listed := ⟨hopens, honce, hnodup, fun v hv => (hall v hv).1, fun v hv => (hall v hv).2, hnamed⟩
    obtain ⟨sent, current, due, hq, hsent, hcur, hdue, hone⟩ :=
      phases_of_pairwise hsorted fun v hv => ((hmem hl v).mp hv).2
    refine ⟨hl, sent, current, due, hq, hsent, hcur, hdue, ?_⟩
    have hcurrent : ∀ v ∈ current, v ∈ a.invoices := fun v hv => ((hmem hl v).mp (by simp [hq, hv])).1
    cases hk : a.cursor with
    | none =>
      rw [List.eq_nil_iff_forall_not_mem.mpr fun v hv => hidle hk v (hcurrent v hv) (hcur v hv)]
      exact .nil
    | some k =>
      obtain ⟨v, hv, hkv, hs, hat⟩ := hbusy k (by simp [hk])
      have hvq : v ∈ sent ++ current ++ due := hq ▸ (hmem hl v).mpr ⟨hv, by simp [hs]⟩
      have hvc : v ∈ current := by
        rcases List.mem_append.mp hvq with hvq | hvq
        · rcases List.mem_append.mp hvq with hvq | hvq
          · exact absurd (hsent v hvq) (by simp [hs])
          · exact hvq
        · exact absurd (hdue v hvq) (by simp [hs])
      obtain ⟨w, rfl⟩ := List.length_eq_one_iff.mp (le_antisymm hone (List.length_pos_of_mem hvc))
      obtain rfl := List.mem_singleton.mp hvc
      exact .cons ⟨hkv, hat⟩ .nil
  · rintro ⟨hl, sent, current, due, hp⟩
    refine ⟨hl.opens, hl.once, hl.queueNodup, fun v hv => ⟨hl.queued v hv, hl.caused v hv⟩, hl.named, hp.pairwise,
      fun hk v hv hs => ?_, fun k hk => ?_⟩
    · have hcur : current = [] := by simpa [hk] using hp.cursor
      have hvq := (hmem hl v).mpr ⟨hv, by simp [hs]⟩
      rw [hp.queue, hcur, List.append_nil] at hvq
      rcases List.mem_append.mp hvq with hvq | hvq
      · exact absurd (hp.areSent v hvq) (by simp [hs])
      · exact absurd (hp.areDue v hvq) (by simp [hs])
    · have hcur := hp.cursor
      rw [Option.mem_toList] at hk
      simp only [hk, Option.toList_some, List.forall₂_cons_left_iff, List.forall₂_nil_left_iff] at hcur
      obtain ⟨v, vs, ⟨hkv, hat⟩, rfl, rfl⟩ := hcur
      exact ⟨v, ((hmem hl v).mp (by simp [hp.queue])).1, hkv, hp.isCurrent v (by simp), hat⟩

/-! ### The agreement -/

/-- The lines, the invoices and the credit agree, all but the store-low flag, with an invoice in hand while a line is filed on it. -/
structure Account.Agrees (hand : Option InvoiceNumber) (a : Account) : Prop where
  pool : a.PoolOk hand
  credit : a.CreditOk
  listed : a.Listed
  phased : ∃ sent current due, a.Phases sent current due

/-- The store-low flag tells fewer than 64 free places (R118). -/
def Account.FlagOk (a : Account) : Prop := a.storeLow = decide (4096 - a.lines.length < 64)

theorem Account.invoicesOk_iff {a : Account} : a.InvoicesOk ↔ a.Agrees none ∧ a.FlagOk := by
  rw [Account.InvoicesOk, Account.linesOk_iff]
  constructor
  · rintro ⟨⟨hp, hf⟩, hc, hq⟩
    obtain ⟨hl, hph⟩ := (Account.queueOk_iff hp.numbers).mp hq
    exact ⟨⟨hp, hc, hl, hph⟩, hf⟩
  · rintro ⟨⟨hp, hc, hl, hph⟩, hf⟩
    exact ⟨⟨hp, hf⟩, hc, (Account.queueOk_iff hp.numbers).mpr ⟨hl, hph⟩⟩

end Sys2Proof.Machine
end

section
/-! Sending and closing keep the invoices and the credit in agreement (R125, R129, R130, R133). -/

namespace Sys2Proof.Machine

section
variable {a b : Account} {hand : Option InvoiceNumber} {n : InvoiceNumber} {v : Invoice} {k k' : Cursor} {cur : Option Cursor}
  {f : Invoice → Invoice} {sent current due pre post : List Invoice}

/-! ### One invoice changed -/

/-- The invoice of a number changed, the others as they were. -/
theorem map_change_one (hn : ((pre ++ v :: post).map Invoice.number).Nodup) :
    (pre ++ v :: post).map (fun x => if x.number = v.number then f x else x) = pre ++ f v :: post := by
  rw [List.map_append, List.map_cons, List.nodup_append] at hn
  obtain ⟨-, hpost, hpre⟩ := hn
  rw [List.nodup_cons] at hpost
  have hother : ∀ {ws : List Invoice}, (∀ w ∈ ws, w.number ≠ v.number) →
      ws.map (fun x => if x.number = v.number then f x else x) = ws := fun h =>
    (List.map_congr_left fun w hw => if_neg (h w hw)).trans (List.map_id' _)
  rw [List.map_append, List.map_cons, if_pos rfl, hother, hother]
  · exact fun w hw e => hpost.1 (List.mem_map.mpr ⟨w, hw, e⟩)
  · exact fun w hw e => hpre _ (List.mem_map.mpr ⟨w, hw, rfl⟩) _ List.mem_cons_self e

theorem Account.Listed.change_one (h : a.Listed) (hq : a.settleQueue.filterMap a.invoice = pre ++ v :: post)
    (hb : b.invoices = (a.updInvoice v.number f).invoices) (hs : b.settleQueue = a.settleQueue)
    (hf : ∀ x, (f x).number = x.number) : b.settleQueue.filterMap b.invoice = pre ++ f v :: post := by
  have hg : ∀ x : Invoice, (if x.number = v.number then f x else x).number = x.number := fun x => by
    split
    · exact hf x
    · rfl
  rw [hs, Account.invoices_of_map hb hg, hq]
  refine map_change_one ?_
  rw [← hq, h.queueNumbers]
  exact h.queueNodup

/-- An invoice that has been closed changes in its state and its mark. -/
theorem Account.Agrees.change (h : a.Agrees hand) (hv : a.invoice n = some v) (hs : v.state ≠ .opened)
    (hf : ∀ x, (f x).number = x.number ∧ (f x).lines = x.lines ∧ (f x).total = x.total ∧ (f x).cause = x.cause ∧
      (f x).state ≠ .opened) (hp : ({ a.updInvoice n f with cursor := cur } : Account).Phases sent current due) :
    ({ a.updInvoice n f with cursor := cur } : Account).Agrees hand := by
  have hg : ∀ x, (if x.number = n then f x else x).number = x.number ∧ (if x.number = n then f x else x).lines = x.lines ∧
      (if x.number = n then f x else x).total = x.total ∧ (if x.number = n then f x else x).cause = x.cause := fun x => by
    obtain ⟨h1, h2, h3, h4, -⟩ := hf x
    split
    · exact ⟨h1, h2, h3, h4⟩
    · exact ⟨rfl, rfl, rfl, rfl⟩
  have ho : ∀ x ∈ a.invoices, (if x.number = n then f x else x).state = .opened ↔ x.state = .opened := fun x hx => by
    obtain ⟨hm, hvn⟩ := Account.mem_of_invoice hv
    split
    · next he =>
      rw [eq_of_number_eq h.pool.numbers hx hm (he.trans hvn.symm)]
      exact iff_of_false (hf v).2.2.2.2 hs
    · rfl
  exact ⟨h.pool.map rfl rfl (fun x => ⟨(hg x).1, (hg x).2.1, (hg x).2.2.1⟩) (fun x hx => (ho x hx).mp),
    h.credit.of_same rfl rfl rfl rfl (numbers_map fun x => (hg x).1),
    h.listed.map rfl rfl rfl (fun x => ⟨(hg x).1, (hg x).2.2.2⟩) ho, sent, current, due, hp⟩

/-! ### The cursor (R129, R130) -/

theorem Account.Phases.current_of_cursor (h : a.Phases sent current due) (hk : a.cursor = some k) :
    ∃ v, current = [v] ∧ k.StandsIn v ∧ a.invoice k.invoice = some v := by
  have hcur := h.cursor
  rw [hk, Option.toList_some, List.forall₂_cons_left_iff] at hcur
  obtain ⟨v, vs, hat, hvs, rfl⟩ := hcur
  obtain rfl := List.forall₂_nil_left_iff.mp hvs
  have hm : v ∈ a.settleQueue.filterMap a.invoice := by simp [h.queue]
  obtain ⟨m, -, hm⟩ := List.mem_filterMap.mp hm
  refine ⟨v, rfl, hat, ?_⟩
  rwa [← hat.1, (Account.mem_of_invoice hm).2]

theorem Account.Phases.idle (h : a.Phases sent current due) (hk : a.cursor = none) : current = [] := by
  simpa [hk] using h.cursor

/-- The invoice in which the cursor stands is SENDING. -/
theorem Account.Agrees.stands (h : a.Agrees hand) (hk : a.cursor = some k) :
    ∃ v, a.invoice k.invoice = some v ∧ v ∈ a.invoices ∧ v.state = .sending ∧ k.StandsIn v := by
  obtain ⟨sent, current, due, hp⟩ := h.phased
  obtain ⟨v, rfl, hat, hv⟩ := hp.current_of_cursor hk
  exact ⟨v, hv, (Account.mem_of_invoice hv).1, hp.isCurrent v (by simp), hat⟩

/-- The cursor moves on within its invoice. -/
theorem Account.Agrees.moveCursor (h : a.Agrees hand) (hk : a.cursor = some k) (hv : a.invoice k.invoice = some v)
    (hat : k'.StandsIn v) : ({ a with cursor := some k' } : Account).Agrees hand := by
  obtain ⟨sent, current, due, hp⟩ := h.phased
  obtain ⟨w, rfl, -, hw⟩ := hp.current_of_cursor hk
  obtain rfl : v = w := Option.some.inj (hv.symm.trans hw)
  exact ⟨⟨h.pool.numbers, h.pool.places, h.pool.owned, fun x hx => ⟨(h.pool.bills x hx).fits, (h.pool.bills x hx).filed,
      (h.pool.bills x hx).total, (h.pool.bills x hx).numbered⟩, h.pool.sized⟩, h.credit,
    ⟨h.listed.opens, h.listed.once, h.listed.queueNodup, h.listed.queued, h.listed.caused, h.listed.named⟩,
    sent, [v], due, hp.queue, hp.areSent, hp.isCurrent, hp.areDue, .cons hat .nil⟩

/-- The account once the last line of the SENDING invoice has been placed (R130). -/
def Account.finished (a : Account) (n : InvoiceNumber) : Account :=
  { a.updInvoice n (fun x => { x with state := .awaiting }) with cursor := none }

theorem Account.Phases.finished (hl : a.Listed) (h : a.Phases sent [v] due) :
    (a.finished v.number).Phases (sent ++ [{ v with state := .awaiting }]) [] due := by
  refine ⟨?_, ?_, by simp, h.areDue, .nil⟩
  · rw [hl.change_one (b := a.finished v.number) (f := fun x => { x with state := .awaiting })
      (pre := sent) (post := due) (by simp [h.queue]) rfl rfl fun _ => rfl]
    simp
  · simpa [or_imp, forall_and] using h.areSent

theorem Account.Agrees.finished (h : a.Agrees hand) (hk : a.cursor = some k) : (a.finished k.invoice).Agrees hand := by
  obtain ⟨sent, current, due, hp⟩ := h.phased
  obtain ⟨v, rfl, hat, hv⟩ := hp.current_of_cursor hk
  exact h.change hv (by simp [hp.isCurrent v (by simp)]) (fun x => ⟨rfl, rfl, rfl, rfl, by simp⟩)
    (hat.1 ▸ Account.Phases.finished h.listed hp)

/-! ### An invoice begins (R129) -/

/-- The first CLOSED invoice is the first that is due. -/
theorem Account.firstClosed_eq (a : Account) : a.firstClosed = a.due.head? := by
  rw [Account.due, List.filter_filterMap, List.head?_filterMap]
  rfl

theorem Account.Phases.begins (hl : a.Listed) (h : a.Phases sent [] (v :: due)) :
    (a.beginSending v).Phases sent [{ v with state := .sending, sentBefore := true }] due := by
  refine ⟨?_, h.areSent, by simp, fun w hw => h.areDue w (List.mem_cons_of_mem _ hw), .cons ⟨rfl, rfl⟩ .nil⟩
  rw [hl.change_one (b := a.beginSending v) (f := fun x => { x with state := .sending, sentBefore := true })
    (pre := sent) (post := due) (by simp [h.queue]) rfl rfl fun _ => rfl]
  simp

/-- With the cursor idle the invoices that are due begin in turn. -/
theorem Account.Agrees.due_phases (h : a.Agrees hand) (hk : a.cursor = none) : ∃ sent, a.Phases sent [] a.due := by
  obtain ⟨sent, current, due, hp⟩ := h.phased
  obtain rfl := hp.idle hk
  exact ⟨sent, hp.due_eq ▸ hp⟩

theorem Account.Agrees.begins (h : a.Agrees hand) (hk : a.cursor = none) (hv : a.firstClosed = some v) :
    (a.beginSending v).Agrees hand := by
  obtain ⟨sent, hp⟩ := h.due_phases hk
  obtain ⟨due, hd⟩ : ∃ due, a.due = v :: due := by
    rw [Account.firstClosed_eq, List.head?_eq_some_iff] at hv
    exact hv
  rw [hd] at hp
  have hm : v ∈ a.settleQueue.filterMap a.invoice := by simp [hp.queue]
  obtain ⟨m, -, hm⟩ := List.mem_filterMap.mp hm
  obtain rfl := (Account.mem_of_invoice hm).2
  exact h.change hm (by simp [hp.areDue v]) (fun x => ⟨rfl, rfl, rfl, rfl, by simp⟩) (Account.Phases.begins h.listed hp)

end

/-! ### The messages of an invoice placed (R130) -/

section
variable {p q : Part} {l : LinkId} {k : Cursor} {v : Invoice}

/-- A message of the SENDING invoice placed, and the cursor behind it. -/
def Part.placing (p : Part) (l : LinkId) (m : OutMsg) (k : Cursor) : Part :=
  { p with links := p.links.upd l (fun x => { x with bulk := x.bulk ++ [m] }), account := { p.account with cursor := some k } }

/-- The part once the last message of the SENDING invoice has been placed. -/
def Part.finishing (p : Part) (n : InvoiceNumber) : Part := { p with account := p.account.finished n }

theorem finishSending_eq (n : InvoiceNumber) (p : Part) :
    finishSending n p = ((p.finishing n).tryBegin).getD (p.finishing n) := rfl

theorem Part.tryBegin_some (h : p.tryBegin = some q) :
    ∃ v, p.account.cursor = none ∧ p.account.firstClosed = some v ∧ q = { p with account := p.account.beginSending v } := by
  unfold Part.tryBegin at h
  split at h
  · next v hk _ hv =>
    cases h
    exact ⟨v, hk, hv, rfl⟩
  · cases h

theorem Part.postBulk_room (hu : (p.links.get l).state = .up) (hroom : (p.links.get l).bulk.length < Config.bulkCap) (m : OutMsg) :
    p.postBulk l m = { p with links := p.links.upd l (fun x => { x with bulk := x.bulk ++ [m] }) } := by
  simp only [Part.postBulk, Part.updLink]
  congr 1
  apply PerLink.upd_congr
  rw [if_pos hu, Link.putBulk_room hroom]

/-- INVOICE HEADER goes first. -/
theorem placeNext_header (hu : (p.links.get l).state = .up) (hroom : (p.links.get l).bulk.length < Config.bulkCap)
    (hd : k.headerDue = true) (hv : v.lines ≠ []) : placeNext l k v p =
      p.placing l ⟨none, .invoiceHeader v.number v.cause v.lines.length v.total k.markBefore⟩ { k with headerDue := false } := by
  simp only [placeNext, hd, if_true, hv, if_false, Part.postBulk_room hu hroom]
  rfl

/-- Then INVOICE LINE of each line, until the last has been placed. -/
theorem placeNext_line {i : Nat} {x : Line} (hu : (p.links.get l).state = .up)
    (hroom : (p.links.get l).bulk.length < Config.bulkCap) (hd : k.headerDue = false) (hi : v.lines[k.placed]? = some i)
    (hx : Table.find p.account.lines i = some x) : placeNext l k v p =
      if v.lines.length ≤ k.placed + 1 then
        finishSending v.number (p.placing l ⟨none, .invoiceLine i x⟩ { k with placed := k.placed + 1 })
      else p.placing l ⟨none, .invoiceLine i x⟩ { k with placed := k.placed + 1 } := by
  simp only [placeNext, hd, if_false, hi, hx, Part.postBulk_room hu hroom, Bool.false_eq_true]
  rfl

theorem tryBegin_agrees {hand : Option InvoiceNumber} (h : p.account.Agrees hand) (hq : p.tryBegin = some q) :
    q.account.Agrees hand := by
  obtain ⟨v, hk, hv, rfl⟩ := Part.tryBegin_some hq
  exact h.begins hk hv

/-- The cursor of the part that `finishSending` is given does not count: it has run past the last line. -/
theorem finishSending_agrees {hand : Option InvoiceNumber} (h : p.account.Agrees hand) (hk : p.account.cursor = some k)
    (m : OutMsg) : (finishSending k.invoice (p.placing l m { k with placed := k.placed + 1 })).account.Agrees hand := by
  have hdone : ((p.placing l m { k with placed := k.placed + 1 }).finishing k.invoice).account.Agrees hand := h.finished hk
  rw [finishSending_eq]
  cases hb : ((p.placing l m { k with placed := k.placed + 1 }).finishing k.invoice).tryBegin with
  | none => exact hdone
  | some q => exact tryBegin_agrees hdone hb

theorem placeNext_agrees (h : p.account.Agrees none) (hk : p.account.cursor = some k) (hu : (p.links.get l).state = .up)
    (hroom : (p.links.get l).bulk.length < Config.bulkCap) (hv : p.account.invoice k.invoice = some v) :
    (placeNext l k v p).account.Agrees none := by
  obtain ⟨w, hw, hm, -, hkv, hat⟩ := h.stands hk
  obtain rfl : v = w := Option.some.inj (hv.symm.trans hw)
  obtain ⟨hone, -⟩ := h.pool.sized v hm (by simp)
  cases hd : k.headerDue with
  | true =>
    rw [placeNext_header hu hroom hd (List.length_pos_iff.mp hone)]
    rw [hd, if_pos rfl] at hat
    exact h.moveCursor hk hv ⟨hkv, by simpa [hat, Nat.succ_le_iff] using hone⟩
  | false =>
    rw [hd, if_neg (by simp)] at hat
    obtain ⟨x, hx, -⟩ := (h.pool.bills v hm).filed _ (List.getElem_mem hat)
    rw [placeNext_line hu hroom hd (List.getElem?_eq_getElem hat) hx]
    split
    · exact hkv ▸ finishSending_agrees h hk _
    · next hlast => exact h.moveCursor hk hv ⟨hkv, by simpa [hd] using hlast⟩

/-- Placing messages while there is room keeps the agreement. -/
theorem pump_agrees (turns : Nat) (h : p.account.Agrees none) : (pump turns p).account.Agrees none := by
  induction turns generalizing p with
  | zero => exact h
  | succ t ih =>
    unfold pump
    split
    · next k l hk hl =>
      split
      · next hroom =>
        split
        · exact h
        · next v hv => exact ih (placeNext_agrees h hk (Part.linkOf_up hl).1 hroom hv)
      · exact h
    · exact h

theorem startCheck_agrees (h : p.account.Agrees none) : (startCheck p).account.Agrees none := by
  unfold startCheck
  split
  · exact h
  · next q hq => exact pump_agrees _ (tryBegin_agrees h hq)

end

end Sys2Proof.Machine
end

section
/-! Closing and settling keep the invoices and the credit in agreement (R125, R131, R133). -/

namespace Sys2Proof.Machine

/-! ### What the agreement is read from -/

/-- What a buyer's record says of its lines and its invoices. -/
def Buyer.entry (b : Buyer) : Nat × Nat × Option InvoiceNumber × Nat := (b.exposure, b.lines, b.openInvoice, b.sequence)

/-- The buyers' entries, the lines, the invoices, the two lists, the cursor and the day. -/
abbrev Ledger : Type := Table (Nat × Nat × Option InvoiceNumber × Nat) × Table Line × List Invoice × List InvoiceNumber ×
  List InvoiceNumber × Option Cursor × Nat

/-- All that the agreement is read from, the store-low flag apart. -/
def Account.ledger (a : Account) : Ledger :=
  (Table.reads a.buyers Buyer.entry, a.lines, a.invoices, a.openList, a.settleQueue, a.cursor, a.hall.day)

section
variable {a b : Account} {hand : Option InvoiceNumber} {n : InvoiceNumber} {v : Invoice} {cause : CloseCause}
  {sent current due ws : List Invoice} {g : Invoice → Invoice}

/-- A table in which one field of every record is as in another holds, under a key, a record with the same field. -/
theorem Table.mem_of_reads {α β : Type} {t u : Table α} {g : α → β} (h : Table.reads u g = Table.reads t g) {e : Nat × α}
    (he : e ∈ u) : ∃ x, (e.1, x) ∈ t ∧ g e.2 = g x := by
  have hm : (e.1, g e.2) ∈ Table.reads t g := h ▸ List.mem_map_of_mem (f := fun e => (e.1, g e.2)) he
  obtain ⟨⟨i, x⟩, hx, hi⟩ := List.mem_map.mp hm
  obtain ⟨rfl, hg⟩ := Prod.mk.inj hi
  exact ⟨x, hx, hg.symm⟩

theorem Table.has_of_reads {α β : Type} {t u : Table α} {g : α → β} (h : Table.reads u g = Table.reads t g) (k : Nat) :
    Table.has u k = Table.has t k := by
  have hk := congrArg (fun x => (Table.find x k).isSome) h
  simp only [Table.find_reads, Option.isSome_map] at hk
  exact hk

/-- Accounts that differ in their buyers and their day alone, when the credit is as it should be. -/
theorem Account.Agrees.of_credit (h : a.Agrees hand) (hc : b.CreditOk) (hlines : b.lines = a.lines)
    (hinv : b.invoices = a.invoices) (hopen : b.openList = a.openList) (hqueue : b.settleQueue = a.settleQueue)
    (hcursor : b.cursor = a.cursor) : b.Agrees hand := by
  have hinvoice : b.invoice = a.invoice := funext fun n => by rw [Account.invoice, Account.invoice, hinv]
  obtain ⟨sent, current, due, hp⟩ := h.phased
  refine ⟨h.pool.map (g := id) (by simpa using hinv) hlines (fun _ => ⟨rfl, rfl, rfl⟩) (fun _ _ => id), hc,
    h.listed.map (g := id) (by simpa using hinv) hopen hqueue (fun _ => ⟨rfl, rfl⟩) (fun _ _ => Iff.rfl),
    sent, current, due, ?_, hp.areSent, hp.isCurrent, hp.areDue, ?_⟩
  · rw [hqueue, hinvoice, hp.queue]
  · rw [hcursor]
    exact hp.cursor

theorem Account.CreditOk.of_ledger (h : a.CreditOk) (hb : b.ledger = a.ledger) : b.CreditOk := by
  simp only [Account.ledger, Prod.mk.injEq] at hb
  obtain ⟨hbuyers, hlines, hinv, hopen, -, -, hday⟩ := hb
  obtain ⟨hhas, hcred⟩ := Account.creditOk_iff.mp h
  refine Account.creditOk_iff.mpr ⟨fun v hv => ?_, fun e he => ?_⟩
  · rw [Table.has_of_reads hbuyers]
    exact hhas v (hinv ▸ hv)
  · obtain ⟨x, hx, hex⟩ := Table.mem_of_reads hbuyers he
    exact (hcred _ hx).of_same hex hlines hopen hday (by rw [hinv])

theorem Account.Agrees.of_ledger (h : a.Agrees hand) (hb : b.ledger = a.ledger) : b.Agrees hand := by
  have hc := h.credit.of_ledger hb
  simp only [Account.ledger, Prod.mk.injEq] at hb
  obtain ⟨-, hlines, hinv, hopen, hqueue, hcursor, -⟩ := hb
  exact h.of_credit hc hlines hinv hopen hqueue hcursor

theorem Account.FlagOk.of_same (h : a.FlagOk) (hf : b.storeLow = a.storeLow) (hl : b.lines = a.lines) : b.FlagOk := by
  rw [Account.FlagOk, hf, hl]
  exact h

/-- All that the agreement is read from, with the store-low flag. -/
def Account.books (a : Account) : Ledger × Bool := (a.ledger, a.storeLow)

/-- Accounts of the same books are in agreement together. -/
theorem Account.InvoicesOk.of_books (h : a.InvoicesOk) (hb : b.books = a.books) : b.InvoicesOk := by
  obtain ⟨hagrees, hflag⟩ := Account.invoicesOk_iff.mp h
  obtain ⟨hledger, hlow⟩ := Prod.mk.inj hb
  exact Account.invoicesOk_iff.mpr ⟨hagrees.of_ledger hledger, hflag.of_same hlow (congrArg (·.2.1) hledger)⟩

/-- With no invoice in hand, any may be taken in hand. -/
theorem Account.Agrees.inHand (h : a.Agrees none) (hand : Option InvoiceNumber) : a.Agrees hand :=
  ⟨{ h.pool with sized := fun v hv _ => h.pool.sized v hv (by simp) }, h.credit, h.listed, h.phased⟩

/-- An invoice is put away once it holds a line, and fewer than 48 while OPEN. -/
theorem Account.Agrees.putAway (h : a.Agrees (some n)) (hv : a.invoice n = some v) (hone : 1 ≤ v.lines.length)
    (hopen : v.state = .opened → v.lines.length < 48) : a.Agrees none := by
  refine ⟨{ h.pool with sized := fun w hw _ => ?_ }, h.credit, h.listed, h.phased⟩
  obtain ⟨hm, hn⟩ := Account.mem_of_invoice hv
  by_cases hwn : w.number = n
  · obtain rfl := eq_of_number_eq h.pool.numbers hw hm (hwn.trans hn.symm)
    exact ⟨hone, hopen⟩
  · exact h.pool.sized w hw fun e => hwn (Option.some.inj e).symm

/-! ### An invoice is closed (R125) -/

@[simp] theorem Account.close_buyers (a : Account) (n : InvoiceNumber) (cause : CloseCause) :
    (a.close n cause).buyers = a.buyers.modify n.buyer (fun b => { b with openInvoice := none }) := rfl
@[simp] theorem Account.close_settleQueue (a : Account) (n : InvoiceNumber) (cause : CloseCause) :
    (a.close n cause).settleQueue = a.settleQueue ++ [n] := rfl
@[simp] theorem Account.close_openList (a : Account) (n : InvoiceNumber) (cause : CloseCause) :
    (a.close n cause).openList = a.openList.filter (fun x => decide (x ≠ n)) := rfl
theorem Account.close_invoices (a : Account) (n : InvoiceNumber) (cause : CloseCause) : (a.close n cause).invoices =
    a.invoices.map (fun x => if x.number = n then { x with state := .closed, cause := some cause } else x) := rfl

/-- Whom the open list names, once one invoice has left it. -/
theorem find?_filter_ne_of_once {ns : List InvoiceNumber} (hn : (ns.map InvoiceNumber.buyer).Nodup) {n : InvoiceNumber}
    (hm : n ∈ ns) (u : Nat) : (ns.filter (fun x => decide (x ≠ n))).find? (fun x => decide (x.buyer = u)) =
      if u = n.buyer then none else ns.find? (fun x => decide (x.buyer = u)) := by
  rw [List.find?_filter]
  split
  · next hu =>
    refine List.find?_eq_none.mpr fun x hx => ?_
    have hxn : x.buyer = n.buyer → x = n := fun e => List.inj_on_of_nodup_map hn hx hm e
    simpa [hu] using fun hne e => hne (hxn e)
  · next hu =>
    congr 1
    funext x
    by_cases hx : x = n
    · simp [hx, Ne.symm hu]
    · simp [hx]

theorem Account.CreditOk.close (h : a.CreditOk) (honce : (a.openList.map InvoiceNumber.buyer).Nodup) (hn : n ∈ a.openList) :
    (a.close n cause).CreditOk := by
  obtain ⟨hhas, hcred⟩ := Account.creditOk_iff.mp h
  have hnumbers : (a.close n cause).invoices.map Invoice.number = a.invoices.map Invoice.number :=
    numbers_map fun x => by split <;> rfl
  refine Account.creditOk_iff.mpr ⟨fun w hw => ?_, fun e he => ?_⟩
  · obtain ⟨x, hx, he⟩ := List.mem_map.mp (hnumbers ▸ List.mem_map_of_mem (f := Invoice.number) hw)
    rw [Table.has, Account.close_buyers, Table.find_modify, ← he]
    have := hhas x hx
    split <;> simpa [Table.has] using this
  · obtain ⟨x, hx, rfl⟩ := List.mem_map.mp he
    have hc := hcred x hx
    have hlist := find?_filter_ne_of_once honce hn
    split
    · next hu =>
      refine ⟨hc.exposure, hc.lines, ?_, (Account.invoice_none_of_numbers hnumbers _).mpr hc.sequence⟩
      exact ((hlist x.1).trans (if_pos hu)).symm
    · next hu =>
      refine ⟨hc.exposure, hc.lines, ?_, (Account.invoice_none_of_numbers hnumbers _).mpr hc.sequence⟩
      exact hc.opened.trans ((hlist x.1).trans (if_neg hu)).symm

/-- The invoice of a number changed, in a list that does not hold it. -/
theorem map_change_absent {f : Invoice → Invoice} (h : ∀ w ∈ ws, w.number ≠ n) :
    ws.map (fun x => if x.number = n then f x else x) = ws :=
  (List.map_congr_left fun w hw => if_neg (h w hw)).trans (List.map_id' _)

theorem Account.Listed.close (h : a.Listed) (hv : a.invoice n = some v)
    (hs : v.state = .opened) : (a.close n cause).Listed := by
  obtain ⟨hm, hvn⟩ := Account.mem_of_invoice hv
  have hqueue : n ∉ a.settleQueue := fun hq => (h.queued v hm).mp (hvn ▸ hq) hs
  have hmem : ∀ w ∈ (a.close n cause).invoices, ∃ x ∈ a.invoices,
      w = if x.number = n then { x with state := .closed, cause := some cause } else x := fun w hw => by
    obtain ⟨x, hx, rfl⟩ := List.mem_map.mp hw
    exact ⟨x, hx, rfl⟩
  refine ⟨?_, h.once.sublist (List.filter_sublist.map _), ?_, fun w hw => ?_, fun w hw => ?_, fun m hq => ?_⟩
  · have hopen : a.invoices.filter ((fun x => decide (x.state = .opened)) ∘ fun x =>
        if x.number = n then { x with state := .closed, cause := some cause } else x) =
        (a.invoices.filter (fun x => decide (x.state = .opened))).filter (fun x => decide (x.number ≠ n)) := by
      rw [List.filter_filter]
      refine List.filter_congr fun x _ => ?_
      by_cases hx : x.number = n <;> simp [hx]
    have hnumber : Invoice.number ∘ (fun x : Invoice =>
        if x.number = n then { x with state := .closed, cause := some cause } else x) = Invoice.number := by
      funext x
      simp only [Function.comp]
      split <;> rfl
    refine (congrArg (List.filter _) h.opens).trans ?_
    rw [List.filter_map]
    refine Eq.symm ((congrArg (List.map _) List.filter_map).trans ?_)
    rw [List.map_map, hnumber, hopen]
    rfl
  · rw [Account.close_settleQueue]
    exact List.nodup_append.mpr ⟨h.queueNodup, by simp, fun x hx y hy e => hqueue (List.mem_singleton.mp hy ▸ e ▸ hx)⟩
  · obtain ⟨x, hx, rfl⟩ := hmem w hw
    split
    · next he => exact iff_of_true (by simp [he]) (by simp)
    · next he => simpa [he] using h.queued x hx
  · obtain ⟨x, hx, rfl⟩ := hmem w hw
    split
    · simp
    · exact h.caused x hx
  · rw [Account.invoice_of_map (a := a) (b := a.close n cause) rfl (fun x => by split <;> rfl), Option.isSome_map]
    rcases List.mem_append.mp hq with hq | hq
    · exact h.named m hq
    · simp [List.mem_singleton.mp hq, hv]

/-- The settlement queue does not name an OPEN invoice. -/
theorem Account.Listed.absent_of_open (h : a.Listed) (hv : a.invoice n = some v) (hs : v.state = .opened) :
    ∀ w ∈ a.settleQueue.filterMap a.invoice, w.number ≠ n := by
  obtain ⟨hm, hvn⟩ := Account.mem_of_invoice hv
  rintro w hw rfl
  have hq : w.number ∈ a.settleQueue := h.queueNumbers ▸ List.mem_map_of_mem hw
  exact (h.queued v hm).mp (hvn ▸ hq) hs

theorem Account.Phases.close (hl : a.Listed) (h : a.Phases sent current due) (hv : a.invoice n = some v) (hs : v.state = .opened) :
    (a.close n cause).Phases sent current (due ++ [{ v with state := .closed, cause := some cause }]) := by
  have hvn := (Account.mem_of_invoice hv).2
  have habsent := h.queue ▸ hl.absent_of_open hv hs
  refine ⟨?_, h.areSent, h.isCurrent, by simpa [or_imp, forall_and] using h.areDue, h.cursor⟩
  rw [Account.invoices_of_map (Account.close_invoices a n cause) (fun x => by split <;> rfl), Account.close_settleQueue,
    List.filterMap_append, List.map_append, h.queue, map_change_absent habsent]
  simp [hv, hvn]

/-- An OPEN invoice that holds a line is closed. -/
theorem Account.Agrees.close (h : a.Agrees (some n)) (hv : a.invoice n = some v) (hs : v.state = .opened)
    (hone : 1 ≤ v.lines.length) : (a.close n cause).Agrees none := by
  obtain ⟨hm, hvn⟩ := Account.mem_of_invoice hv
  obtain ⟨sent, current, due, hp⟩ := h.phased
  have hopen : n ∈ a.openList := by
    rw [h.listed.opens, ← hvn]
    exact List.mem_map_of_mem (List.mem_filter.mpr ⟨hm, by simpa using hs⟩)
  have hpool : (a.close n cause).PoolOk (some n) :=
    h.pool.map (g := fun x => if x.number = n then { x with state := .closed, cause := some cause } else x) rfl rfl
      (fun x => by split <;> exact ⟨rfl, rfl, rfl⟩) (fun x _ => by split <;> simp)
  have hafter : (a.close n cause).Agrees (some n) :=
    ⟨hpool, h.credit.close h.listed.once hopen, h.listed.close hv hs, sent, current, _, hp.close h.listed hv hs⟩
  have hclosed : (a.close n cause).invoice n = some { v with state := .closed, cause := some cause } := by
    rw [Account.invoice_of_map (a := a) (b := a.close n cause) rfl (fun x => by split <;> rfl), hv, Option.map_some, if_pos hvn]
  exact hafter.putAway hclosed hone (by simp)

/-! ### The SETTLEMENT link is lost (R133) -/

theorem Invoice.returned_keeps (v : Invoice) : v.returned.number = v.number ∧ v.returned.lines = v.lines ∧
    v.returned.total = v.total ∧ v.returned.cause = v.cause ∧ (v.returned.state = .opened ↔ v.state = .opened) := by
  unfold Invoice.returned
  split
  · next h => rcases h with h | h <;> simp [h]
  · simp

/-- An invoice of the queue that returns is CLOSED. -/
theorem Invoice.returned_closed (h : v.state ≠ .opened) : v.returned.state = .closed := by
  unfold Invoice.returned
  cases hs : v.state <;> simp_all

theorem Account.Agrees.returned (h : a.Agrees hand) :
    ({ a with invoices := a.invoices.map Invoice.returned, cursor := none } : Account).Agrees hand := by
  have hk := Invoice.returned_keeps
  obtain ⟨sent, current, due, hp⟩ := h.phased
  refine ⟨h.pool.map rfl rfl (fun v => ⟨(hk v).1, (hk v).2.1, (hk v).2.2.1⟩) (fun v _ => (hk v).2.2.2.2.mp),
    h.credit.of_same rfl rfl rfl rfl (numbers_map fun v => (hk v).1),
    h.listed.map rfl rfl rfl (fun v => ⟨(hk v).1, (hk v).2.2.2.1⟩) (fun v _ => (hk v).2.2.2.2),
    [], [], (sent ++ current ++ due).map Invoice.returned, ?_, by simp, by simp, fun w hw => ?_, .nil⟩
  · rw [Account.invoices_of_map (a := a) rfl (fun v => (hk v).1)]
    exact congrArg (List.map _) hp.queue
  · obtain ⟨v, hv, rfl⟩ := List.mem_map.mp hw
    refine Invoice.returned_closed ?_
    rcases List.mem_append.mp hv with hv | hv
    · rcases List.mem_append.mp hv with hv | hv
      · simp [hp.areSent v hv]
      · simp [hp.isCurrent v hv]
    · simp [hp.areDue v hv]

end

end Sys2Proof.Machine
end

section
/-! Settling an invoice keeps the invoices and the credit in agreement (R131). -/

namespace Sys2Proof.Machine

/-! ### The records of a table under some keys -/

theorem Table.foldl_del_eq_filter {α : Type} (ks : List Nat) (t : Table α) :
    ks.foldl Table.del t = t.filter (fun e => decide (e.1 ∉ ks)) := by
  induction ks generalizing t with
  | nil => simp
  | cons k rest ih =>
    rw [List.foldl_cons, ih, Table.del, List.filter_filter]
    refine List.filter_congr fun e _ => ?_
    simp [Bool.and_comm]

/-- The records read under keys that a table holds are its records under those keys, in another order. -/
theorem Table.filterMap_find_perm {α : Type} {t : Table α} (hr : Table.rising t = true) {ks : List Nat} (hk : ks.Nodup) :
    (ks.filterMap t.find).Perm ((t.filter (fun e => decide (e.1 ∈ ks))).map (·.2)) := by
  let entries : List (Nat × α) := ks.filterMap (fun k => (Table.find t k).map (fun x => (k, x)))
  have hnodup : entries.Nodup := hk.filterMap fun k k' e h h' => by
    obtain ⟨x, -, rfl⟩ := Option.map_eq_some_iff.mp h
    obtain ⟨y, -, hy⟩ := Option.map_eq_some_iff.mp h'
    exact (congrArg (·.1) hy).symm
  have hperm : entries.Perm (t.filter (fun e => decide (e.1 ∈ ks))) := by
    refine (List.perm_ext_iff_of_nodup hnodup ((Table.nodup hr).filter _)).mpr fun e => ?_
    rw [List.mem_filterMap, List.mem_filter, decide_eq_true_eq, ← Table.find_iff_mem hr e.1 e.2]
    constructor
    · rintro ⟨k, hk, he⟩
      obtain ⟨x, hx, rfl⟩ := Option.map_eq_some_iff.mp he
      exact ⟨hx, hk⟩
    · rintro ⟨hx, hk⟩
      exact ⟨e.1, hk, by rw [hx]; rfl⟩
  have hmap : ks.filterMap t.find = entries.map (·.2) := by
    rw [List.map_filterMap]
    refine congrArg (fun f => List.filterMap f ks) (funext fun k => ?_)
    rw [Option.map_map]
    exact Option.map_id'.symm
  rw [hmap]
  exact hperm.map _

section
variable {a : Account} {hand : Option InvoiceNumber} {v w : Invoice} {n : InvoiceNumber} {sent current due : List Invoice}

/-! ### The lines of one invoice -/

/-- A line is on the invoice that it names, and on no other. -/
theorem Account.PoolOk.invoice_of_line (h : a.PoolOk hand) {i : Nat} {x : Line} (hx : Table.find a.lines i = some x)
    (hv : v ∈ a.invoices) : i ∈ v.lines ↔ x.invoice = v.number := by
  constructor
  · intro hi
    obtain ⟨y, hy, hyv⟩ := (h.bills v hv).filed i hi
    rwa [Option.some.inj (hx.symm.trans hy)]
  · intro he
    obtain ⟨w, hw, hwn, hi⟩ := h.owned (i, x) (Table.mem_of_find hx)
    rwa [eq_of_number_eq h.numbers hv hw (he.symm.trans hwn.symm)]

theorem Account.PoolOk.lines_disjoint (h : a.PoolOk hand) (hv : v ∈ a.invoices) (hw : w ∈ a.invoices)
    (hn : w.number ≠ v.number) {i : Nat} (hi : i ∈ w.lines) : i ∉ v.lines := by
  obtain ⟨x, hx, hxw⟩ := (h.bills w hw).filed i hi
  exact fun hiv => hn (hxw.symm.trans ((h.invoice_of_line hx hv).mp hiv))

theorem Account.PoolOk.lines_nodup (h : a.PoolOk hand) (hv : v ∈ a.invoices) : v.lines.Nodup :=
  (List.nodup_flatMap.mp h.places).1 v hv

/-- The lines of an invoice are those of the store that name it. -/
theorem Account.PoolOk.linesOf_perm (h : a.PoolOk hand) (hr : Table.rising a.lines = true) (hv : v ∈ a.invoices) :
    (a.linesOf v).Perm (a.lines.vals.filter (fun x => decide (x.invoice = v.number))) := by
  refine (Table.filterMap_find_perm hr (h.lines_nodup hv)).trans (.of_eq ?_)
  rw [Table.vals, List.filter_map]
  refine congrArg (List.map _) (List.filter_congr fun e he => ?_)
  simp [h.invoice_of_line ((Table.find_iff_mem hr e.1 e.2).mpr he) hv]

/-! ### The release -/

/-- The account once an invoice and its lines have left it, before the store-low flag is looked at. -/
def Account.released (a : Account) (v : Invoice) : Account :=
  { a with
    buyers := a.buyers.modify v.number.buyer (fun b =>
      { b with exposure := b.exposure - v.total, lines := b.lines - v.lines.length }),
    lines := v.lines.foldl Table.del a.lines,
    settleQueue := a.settleQueue.filter (fun n => decide (n ≠ v.number)),
    invoices := a.invoices.filter (fun x => decide (x.number ≠ v.number)) }

theorem Account.settle_eq (a : Account) (v : Invoice) : a.settle v = (a.released v).clearStoreLow := rfl

theorem Account.find_released (a : Account) (v : Invoice) (i : Nat) :
    Table.find (a.released v).lines i = if i ∈ v.lines then none else Table.find a.lines i := Table.find_foldl_del _ _ i

theorem Account.mem_released : w ∈ (a.released v).invoices ↔ w ∈ a.invoices ∧ w.number ≠ v.number := by
  rw [Account.released, List.mem_filter, decide_eq_true_eq]

theorem Account.invoice_released (a : Account) (v : Invoice) (n : InvoiceNumber) :
    (a.released v).invoice n = if n = v.number then none else a.invoice n := by
  rw [Account.invoice, Account.released, List.find?_filter]
  split
  · next h => exact List.find?_eq_none.mpr fun x _ => by simp [h]
  · next h =>
    refine congrArg (fun f => List.find? f a.invoices) (funext fun x => ?_)
    by_cases hx : x.number = n
    · simp [hx, h]
    · simp [hx]

theorem Account.PoolOk.linesOf_released (h : a.PoolOk hand) (hv : v ∈ a.invoices) (hw : w ∈ a.invoices)
    (hn : w.number ≠ v.number) : (a.released v).linesOf w = a.linesOf w :=
  List.filterMap_congr fun i hi => (a.find_released v i).trans (if_neg (h.lines_disjoint hv hw hn hi))

theorem Account.PoolOk.released (h : a.PoolOk hand) (hv : v ∈ a.invoices) : (a.released v).PoolOk hand := by
  refine ⟨h.numbers.sublist (List.filter_sublist.map _), ?_, fun e he => ?_, fun w hw => ?_, fun w hw => ?_⟩
  · exact h.places.sublist (List.Sublist.flatMap List.filter_sublist _)
  · rw [Account.released, Table.foldl_del_eq_filter] at he
    obtain ⟨he, hev⟩ := List.mem_filter.mp he
    obtain ⟨w, hw, hwn, hi⟩ := h.owned e he
    refine ⟨w, Account.mem_released.mpr ⟨hw, fun hwv => ?_⟩, hwn, hi⟩
    exact of_decide_eq_true hev (eq_of_number_eq h.numbers hw hv hwv ▸ hi)
  · obtain ⟨hw, hn⟩ := Account.mem_released.mp hw
    obtain ⟨hfits, hf, ht, hnum⟩ := h.bills w hw
    have hlines := h.linesOf_released hv hw hn
    refine ⟨hfits, fun i hi => ?_, hlines ▸ ht, hlines ▸ hnum⟩
    rw [a.find_released, if_neg (h.lines_disjoint hv hw hn hi)]
    exact hf i hi
  · exact h.sized w (Account.mem_released.mp hw).1

/-- What a buyer owes: its lines on one invoice, and what it owes once the invoice has been settled. -/
theorem Account.PoolOk.owed_perm (h : a.PoolOk hand) (hr : Table.rising a.lines = true) (hv : v ∈ a.invoices) (u : Nat) :
    (a.owed u).Perm ((if u = v.number.buyer then a.linesOf v else []) ++ (a.released v).owed u) := by
  have hsplit : (a.owed u).Perm ((a.owed u).filter (fun x => decide (x.invoice = v.number)) ++
      (a.owed u).filter (fun x => !decide (x.invoice = v.number))) := (List.filter_append_perm _ _).symm
  have hrest : (a.owed u).filter (fun x => !decide (x.invoice = v.number)) = (a.released v).owed u := by
    rw [Account.owed, Account.owed, Account.released, Table.foldl_del_eq_filter, Table.vals, Table.vals, List.filter_map,
      List.filter_map, List.filter_map, List.filter_filter, List.filter_filter]
    refine congrArg (List.map _) (List.filter_congr fun e he => ?_)
    simp [h.invoice_of_line ((Table.find_iff_mem hr e.1 e.2).mpr he) hv, Bool.and_comm]
  have hthis : ((a.owed u).filter (fun x => decide (x.invoice = v.number))).Perm
      (if u = v.number.buyer then a.linesOf v else []) := by
    rw [Account.owed, List.filter_filter]
    split
    · next hu =>
      refine List.Perm.trans (.of_eq (List.filter_congr fun x _ => ?_)) (h.linesOf_perm hr hv).symm
      by_cases hx : x.invoice = v.number <;> simp [hx, hu]
    · next hu =>
      refine .of_eq (List.filter_eq_nil_iff.mpr fun x _ => ?_)
      by_cases hx : x.invoice = v.number <;> simp [hx, Ne.symm hu]
  exact hsplit.trans (hrest ▸ hthis.append_right _)

/-- Every line of an invoice is in the store. -/
theorem Account.Bills.length_linesOf (h : a.Bills v) : (a.linesOf v).length = v.lines.length := by
  have := congrArg List.length h.numbered
  simpa using this

theorem Account.Agrees.credit_released (h : a.Agrees hand) (hr : Table.rising a.lines = true) (hv : v ∈ a.invoices) :
    (a.released v).CreditOk := by
  obtain ⟨hhas, hcred⟩ := Account.creditOk_iff.mp h.credit
  refine Account.creditOk_iff.mpr ⟨fun w hw => ?_, fun e he => ?_⟩
  · have := hhas w (Account.mem_released.mp hw).1
    rw [Table.has, Account.released, Table.find_modify]
    split <;> simpa [Table.has] using this
  · obtain ⟨x, hx, rfl⟩ := List.mem_map.mp he
    obtain ⟨hexp, hlines, hopen, hseq⟩ := hcred x hx
    have howed := h.pool.owed_perm hr hv x.1
    have hsum := (howed.map Line.total).sum_eq
    have hlen := howed.length_eq
    have hnone : ∀ s, a.invoice ⟨a.hall.day, x.1, s⟩ = none → (a.released v).invoice ⟨a.hall.day, x.1, s⟩ = none := fun s hs => by
      rw [a.invoice_released, hs, ite_self]
    split
    · next hu =>
      have hu : x.1 = v.number.buyer := hu
      obtain ⟨-, -, htotal, -⟩ := h.pool.bills v hv
      rw [if_pos hu, List.map_append, List.sum_append, ← htotal] at hsum
      rw [if_pos hu, List.length_append, (h.pool.bills v hv).length_linesOf] at hlen
      refine ⟨?_, ?_, hopen, hnone _ hseq⟩
      · exact (congrArg (· - v.total) (hexp.trans hsum)).trans (Nat.add_sub_cancel_left ..)
      · exact (congrArg (· - v.lines.length) (hlines.trans hlen)).trans (Nat.add_sub_cancel_left ..)
    · next hu =>
      have hu : ¬ x.1 = v.number.buyer := hu
      rw [if_neg hu, List.nil_append] at hsum hlen
      exact ⟨hexp.trans hsum, hlines.trans hlen, hopen, hnone _ hseq⟩

theorem Account.Agrees.listed_released (h : a.Agrees hand) (hv : v ∈ a.invoices) (hs : v.state ≠ .opened) :
    (a.released v).Listed := by
  have hl := h.listed
  refine ⟨?_, hl.once, hl.queueNodup.filter _, fun w hw => ?_, fun w hw => hl.caused w (Account.mem_released.mp hw).1,
    fun m hm => ?_⟩
  · refine hl.opens.trans (congrArg (List.map _) ?_)
    rw [Account.released, List.filter_filter]
    refine List.filter_congr fun w hw => ?_
    by_cases hn : w.number = v.number
    · simp [eq_of_number_eq h.pool.numbers hw hv hn, hs]
    · simp [hn]
  · obtain ⟨hw, hn⟩ := Account.mem_released.mp hw
    rw [← hl.queued w hw, Account.released, List.mem_filter]
    simp [hn]
  · obtain ⟨hm, hn⟩ := List.mem_filter.mp hm
    rw [a.invoice_released, if_neg (of_decide_eq_true hn)]
    exact hl.named m hm

theorem Account.Agrees.phases_released (h : a.Agrees hand) (hp : a.Phases sent current due) (hv : v ∈ a.invoices)
    (hs : v.state = .awaiting) :
    (a.released v).Phases (sent.filter (fun w => decide (w.number ≠ v.number))) current
      (due.filter (fun w => decide (w.number ≠ v.number))) := by
  have hqueue : (a.released v).settleQueue.filterMap (a.released v).invoice =
      (a.settleQueue.filterMap a.invoice).filter (fun w => decide (w.number ≠ v.number)) := by
    rw [List.filter_filterMap, Account.released, List.filterMap_filter]
    refine congrArg (fun f => List.filterMap f a.settleQueue) (funext fun n => ?_)
    change (if decide (n ≠ v.number) = true then (a.released v).invoice n else none) = _
    rw [a.invoice_released]
    cases hn : a.invoice n with
    | none => simp
    | some w =>
      rw [Option.filter_some, (Account.mem_of_invoice hn).2]
      by_cases hnv : n = v.number <;> simp [hnv]
  have hkeep : current.filter (fun w => decide (w.number ≠ v.number)) = current := by
    refine List.filter_eq_self.mpr fun w hw => decide_eq_true fun hn => ?_
    obtain ⟨m, -, hm⟩ := List.mem_filterMap.mp (show w ∈ a.settleQueue.filterMap a.invoice by simp [hp.queue, hw])
    have hwv := eq_of_number_eq h.pool.numbers (Account.mem_of_invoice hm).1 hv hn
    simpa [hwv, hs] using hp.isCurrent w hw
  refine ⟨?_, fun w hw => hp.areSent w (List.mem_filter.mp hw).1, hp.isCurrent, fun w hw => hp.areDue w (List.mem_filter.mp hw).1,
    hp.cursor⟩
  rw [hqueue, hp.queue, List.filter_append, List.filter_append, hkeep]

theorem Account.Agrees.released (h : a.Agrees hand) (hr : Table.rising a.lines = true) (hv : v ∈ a.invoices)
    (hs : v.state = .awaiting) : (a.released v).Agrees hand := by
  obtain ⟨sent, current, due, hp⟩ := h.phased
  exact ⟨h.pool.released hv, h.credit_released hr hv, h.listed_released hv (by simp [hs]), _, _, _, h.phases_released hp hv hs⟩

theorem Account.clearStoreLow_ledger (a : Account) : a.clearStoreLow.ledger = a.ledger := by
  unfold Account.clearStoreLow
  split <;> rfl

/-- An AWAITING invoice is settled. -/
theorem Account.InvoicesOk.settle (h : a.InvoicesOk) (hr : Table.rising a.lines = true) (hv : v ∈ a.invoices)
    (hs : v.state = .awaiting) : (a.settle v).InvoicesOk := by
  obtain ⟨hagrees, hflag⟩ := Account.invoicesOk_iff.mp h
  refine Account.invoicesOk_iff.mpr ⟨(hagrees.released hr hv hs).of_ledger (Account.clearStoreLow_ledger _), ?_⟩
  have hle : (a.released v).lines.length ≤ a.lines.length := Table.length_foldl_del_le _ _
  have hlow : a.storeLow = decide (4096 - a.lines.length < 64) := hflag
  rw [Account.settle_eq, Account.clearStoreLow, Account.FlagOk]
  split
  · next hfree =>
    have hfree : 64 ≤ 4096 - (a.released v).lines.length := hfree
    simp [hfree]
  · next hfree =>
    have hfree : ¬ 64 ≤ 4096 - (a.released v).lines.length := hfree
    refine hlow.trans ?_
    rw [decide_eq_true (by omega), decide_eq_true (by omega)]

end

end Sys2Proof.Machine
end

section
/-! A line filed on an invoice, opened for it where the buyer has none, keeps the invoices and the credit in
agreement (R116 to R122). -/

namespace Sys2Proof.Machine

/-! ### The sequence of an invoice (R122) -/

/-- Counts from one on, past the top or not, do not come back for 65,535 steps. -/
theorem next16_iterate_nodup_of_pos {n m : Nat} (h : 1 ≤ n) (hm : m ≤ Config.maxCount16) :
    ((List.range m).map (fun i => next16^[i] n)).Nodup := by
  by_cases htop : n ≤ Config.maxCount16
  · exact next16_iterate_nodup ⟨h, htop⟩ hm
  · have hadd : ∀ i, next16^[i] n = n + i := fun i => by
      induction i with
      | zero => rfl
      | succ i ih =>
        rw [Function.iterate_succ_apply', ih, next16, if_neg (by omega), Nat.add_assoc]
    exact List.Nodup.map_on (fun i _ j _ hij => by simpa [hadd] using hij) List.nodup_range

section
variable {a : Account} {day u n : Nat}

theorem Account.sequenceHeld_iff :
    a.sequenceHeld day u n = true ↔ (⟨day, u, n⟩ : InvoiceNumber) ∈ a.invoices.map Invoice.number := by
  rw [Account.sequenceHeld, Option.isSome_iff_ne_none, ne_eq, Account.invoice_eq_none, List.mem_map]
  simp

/-- The skip passes over sequences that are held alone. -/
theorem Account.freeSequence_eq_iterate (a : Account) (day u tries n : Nat) :
    ∃ j, a.freeSequence day u tries n = next16^[j] n ∧ ∀ i, i < j → a.sequenceHeld day u (next16^[i] n) = true := by
  induction tries generalizing n with
  | zero => exact ⟨0, rfl, fun i hi => absurd hi (Nat.not_lt_zero i)⟩
  | succ tries ih =>
    rw [Account.freeSequence]
    split
    · next hn =>
      obtain ⟨j, hj, hheld⟩ := ih (next16 n)
      refine ⟨j + 1, hj, fun i hi => ?_⟩
      cases i with
      | zero => exact hn
      | succ i => exact hheld i (Nat.lt_of_succ_lt_succ hi)
    · exact ⟨0, rfl, fun i hi => absurd hi (Nat.not_lt_zero i)⟩

/-- The skip ends at a sequence that is not held, or has found all it tried held. -/
theorem Account.freeSequence_or (a : Account) (day u tries n : Nat) :
    a.sequenceHeld day u (a.freeSequence day u tries n) = false ∨
      ∀ i, i < tries → a.sequenceHeld day u (next16^[i] n) = true := by
  induction tries generalizing n with
  | zero => exact .inr fun i hi => absurd hi (Nat.not_lt_zero i)
  | succ tries ih =>
    rw [Account.freeSequence]
    split
    · next hn =>
      refine (ih (next16 n)).imp id fun hall i hi => ?_
      cases i with
      | zero => exact hn
      | succ i => exact hall i (Nat.lt_of_succ_lt_succ hi)
    · next hn => exact .inl (by simpa using hn)

/-- The pool holds fewer sequences than are tried. -/
theorem Account.skipSequence_free (hn : 1 ≤ n) (hfit : a.invoices.length ≤ Config.maxInvoices) :
    a.sequenceHeld day u (a.skipSequence day u n) = false := by
  refine (a.freeSequence_or day u _ n).resolve_right fun hall => ?_
  have htop : Config.maxInvoices < Config.maxCount16 := by decide
  have hnodup := next16_iterate_nodup_of_pos hn (show a.invoices.length + 1 ≤ Config.maxCount16 by omega)
  have hnumbers := hnodup.map (f := fun q => (⟨day, u, q⟩ : InvoiceNumber)) (fun x y h => (InvoiceNumber.mk.inj h).2.2)
  have hsub : ((List.range (a.invoices.length + 1)).map (fun i => next16^[i] n)).map (fun q => (⟨day, u, q⟩ : InvoiceNumber)) ⊆
      a.invoices.map Invoice.number := fun m hm => by
    obtain ⟨q, hq, rfl⟩ := List.mem_map.mp hm
    obtain ⟨i, hi, rfl⟩ := List.mem_map.mp hq
    exact Account.sequenceHeld_iff.mp (hall i (List.mem_range.mp hi))
  simpa using (List.subperm_of_subset hnumbers hsub).length_le

theorem Account.skipSequence_firstFree (hn : 1 ≤ n) (hfit : a.invoices.length ≤ Config.maxInvoices) :
    FirstFree (fun q => (⟨day, u, q⟩ : InvoiceNumber) ∈ a.invoices.map Invoice.number) n (a.skipSequence day u n) := by
  obtain ⟨j, hj, hheld⟩ := a.freeSequence_eq_iterate day u (a.invoices.length + 1) n
  refine ⟨j, hj, fun hnamed => ?_, fun i hi => Account.sequenceHeld_iff.mp (hheld i hi)⟩
  exact ne_true_of_eq_false (Account.skipSequence_free hn hfit) (Account.sequenceHeld_iff.mpr hnamed)

theorem Account.skipSequence_none (hn : 1 ≤ n) (hfit : a.invoices.length ≤ Config.maxInvoices) :
    a.invoice ⟨day, u, a.skipSequence day u n⟩ = none := by
  simpa [Account.sequenceHeld] using Account.skipSequence_free (day := day) (u := u) hn hfit

end

/-! ### An invoice opens (R116, R121, R122) -/

section
variable {a : Account} {u : Nat} {b : Buyer} {n : InvoiceNumber} {v w : Invoice} {hand : Option InvoiceNumber}

/-- The invoice that opens for a buyer. -/
def Account.newInvoice (a : Account) (u : Nat) (b : Buyer) : Invoice :=
  { number := a.nextInvoice u b, state := .opened, lines := [], total := 0, cause := none, sentBefore := false }

/-- The sequence of the invoice after that. -/
def Account.nextSequence (a : Account) (u : Nat) (b : Buyer) : Nat :=
  ({ a with invoices := a.invoices ++ [a.newInvoice u b], openList := a.openList ++ [a.nextInvoice u b] } : Account).skipSequence
    a.hall.day u (next16 b.sequence)

theorem Account.openInvoiceFor_eq (a : Account) (u : Nat) (b : Buyer) : a.openInvoiceFor u b =
    { a with
      invoices := a.invoices ++ [a.newInvoice u b], openList := a.openList ++ [a.nextInvoice u b],
      buyers := a.buyers.modify u (fun x =>
        { x with openInvoice := some (a.nextInvoice u b), sequence := a.nextSequence u b }) } := rfl

theorem Account.CreditOk.find (h : a.CreditOk) (hb : Table.find a.buyers u = some b) : a.Credits u b :=
  (Account.creditOk_iff.mp h).2 (u, b) (Table.mem_of_find hb)

/-- The number that an invoice takes is not in the pool. -/
theorem Account.CreditOk.next_fresh (h : a.CreditOk) (hb : Table.find a.buyers u = some b) :
    ∀ w ∈ a.invoices, w.number ≠ a.nextInvoice u b :=
  Account.invoice_eq_none.mp (h.find hb).sequence

/-- A buyer with no open invoice is not on the open list. -/
theorem Account.CreditOk.not_open (h : a.CreditOk) (hb : Table.find a.buyers u = some b) (ho : b.openInvoice = none) :
    ∀ m ∈ a.openList, m.buyer ≠ u := by
  have hnone := (h.find hb).opened.symm.trans ho
  simpa using hnone

theorem Account.invoice_opened (hn : ∀ w ∈ a.invoices, w.number ≠ a.nextInvoice u b) (m : InvoiceNumber) :
    (a.openInvoiceFor u b).invoice m = if m = a.nextInvoice u b then some (a.newInvoice u b) else a.invoice m := by
  have hsingle : [a.newInvoice u b].find? (fun i => decide (i.number = m)) =
      if m = a.nextInvoice u b then some (a.newInvoice u b) else none := by
    rw [List.find?_singleton]
    simp [Account.newInvoice, eq_comm]
  rw [Account.invoice, Account.openInvoiceFor_eq, List.find?_append, hsingle]
  split
  · next hm =>
    rw [List.find?_eq_none.mpr fun x hx => by simpa [hm] using hn x hx]
    rfl
  · exact Option.or_none

theorem Account.Agrees.opens (h : a.Agrees none) (hb : Table.find a.buyers u = some b)
    (ho : b.openInvoice = none) (hfit : a.invoices.length < Config.maxInvoices) :
    (a.openInvoiceFor u b).Agrees (some (a.nextInvoice u b)) := by
  have hfresh := h.credit.next_fresh hb
  have hnot := h.credit.not_open hb ho
  have hinvoice := Account.invoice_opened hfresh
  have hmem : ∀ w ∈ (a.openInvoiceFor u b).invoices, w ∈ a.invoices ∨ w = a.newInvoice u b := fun w hw => by
    simpa [Account.openInvoiceFor_eq] using hw
  have hlistedNumber : a.nextInvoice u b ∉ a.settleQueue := fun hq => by
    obtain ⟨w, hw⟩ := Option.isSome_iff_exists.mp (h.listed.named _ hq)
    exact hfresh w (Account.mem_of_invoice hw).1 (Account.mem_of_invoice hw).2
  obtain ⟨hhas, hcred⟩ := Account.creditOk_iff.mp h.credit
  refine ⟨⟨?_, ?_, fun e he => ?_, fun w hw => ?_, fun w hw hhand => ?_⟩, Account.creditOk_iff.mpr ⟨fun w hw => ?_, fun e he => ?_⟩,
    ⟨?_, ?_, h.listed.queueNodup, fun w hw => ?_, fun w hw => ?_, fun m hm => ?_⟩, ?_⟩
  · rw [Account.openInvoiceFor_eq, List.map_append, List.nodup_append]
    refine ⟨h.pool.numbers, List.nodup_singleton _, fun x hx y hy e => ?_⟩
    obtain ⟨w, hw, rfl⟩ := List.mem_map.mp hx
    exact hfresh w hw (e.trans (List.mem_singleton.mp hy))
  · simpa [Account.openInvoiceFor_eq, Account.newInvoice] using h.pool.places
  · obtain ⟨w, hw, hn, hi⟩ := h.pool.owned e he
    exact ⟨w, List.mem_append_left _ hw, hn, hi⟩
  · rcases hmem w hw with hw | rfl
    · obtain ⟨hfits, hf, ht, hnum⟩ := h.pool.bills w hw
      exact ⟨hfits, hf, ht, hnum⟩
    · exact ⟨by simp [Account.newInvoice], by simp [Account.newInvoice], by simp [Account.newInvoice, Account.linesOf],
        by simp [Account.newInvoice, Account.linesOf]⟩
  · rcases hmem w hw with hw | rfl
    · exact h.pool.sized w hw (by simp)
    · exact absurd rfl hhand
  · rw [Account.openInvoiceFor_eq, Table.has, Table.find_modify]
    rcases hmem w hw with hw | rfl
    · have := hhas w hw
      split <;> simpa [Table.has] using this
    · simp [Account.newInvoice, Account.nextInvoice, hb]
  · obtain ⟨x, hx, rfl⟩ := List.mem_map.mp he
    obtain ⟨hexp, hlines, hopen, hseq⟩ := hcred x hx
    split
    · next hu =>
      obtain rfl : x.1 = u := hu
      refine ⟨hexp, hlines, ?_, ?_⟩
      · refine Eq.symm (List.find?_append.trans ?_)
        rw [List.find?_eq_none.mpr fun m hm => by simpa using hnot m hm]
        simp [Account.nextInvoice]
      · exact Account.skipSequence_none (next16_pos _) (by simpa using hfit)
    · next hu =>
      have hu : x.1 ≠ u := hu
      refine ⟨hexp, hlines, hopen.trans (Eq.symm (List.find?_append.trans ?_)), ?_⟩
      · simp [Account.nextInvoice, Ne.symm hu]
      · refine (hinvoice _).trans ((if_neg fun e => hu ?_).trans hseq)
        exact congrArg InvoiceNumber.buyer e
  · have hfilter : (a.invoices ++ [a.newInvoice u b]).filter (fun v => decide (v.state = .opened)) =
        a.invoices.filter (fun v => decide (v.state = .opened)) ++ [a.newInvoice u b] := by
      simp [List.filter_append, Account.newInvoice]
    rw [Account.openInvoiceFor_eq, hfilter, List.map_append, ← h.listed.opens]
    rfl
  · rw [Account.openInvoiceFor_eq, List.map_append, List.nodup_append]
    refine ⟨h.listed.once, List.nodup_singleton _, fun x hx y hy e => ?_⟩
    obtain ⟨m, hm, rfl⟩ := List.mem_map.mp hx
    exact hnot m hm (e.trans (List.mem_singleton.mp hy))
  · rcases hmem w hw with hw | rfl
    · exact h.listed.queued w hw
    · exact iff_of_false hlistedNumber (by simp [Account.newInvoice])
  · rcases hmem w hw with hw | rfl
    · exact h.listed.caused w hw
    · simp [Account.newInvoice]
  · rw [hinvoice, if_neg (ne_of_mem_of_not_mem hm hlistedNumber)]
    exact h.listed.named m hm
  · obtain ⟨sent, current, due, hp⟩ := h.phased
    refine ⟨sent, current, due, ?_, hp.areSent, hp.isCurrent, hp.areDue, hp.cursor⟩
    rw [← hp.queue]
    exact List.filterMap_congr fun m hm => (hinvoice m).trans (if_neg (ne_of_mem_of_not_mem hm hlistedNumber))

end

end Sys2Proof.Machine
end

section
/-! A reservation granted keeps the invoices and the credit in agreement (R116 to R121): the line is filed, and the
invoice put away. -/

namespace Sys2Proof.Machine

/-! ### A line put into the store -/

theorem Table.vals_put_new {α : Type} {t : Table α} {k : Nat} (v : α) (h : Table.find t k = none) :
    (Table.vals (Table.put t k v)).Perm (v :: Table.vals t) := by
  obtain ⟨a, b, rfl, hp⟩ := Table.put_new v h
  simp only [Table.vals, hp, List.map_append, List.map_cons]
  exact List.perm_middle

theorem Table.length_put_new {α : Type} {t : Table α} {k : Nat} (v : α) (h : Table.find t k = none) :
    (Table.put t k v).length = t.length + 1 := by
  obtain ⟨a, b, rfl, hp⟩ := Table.put_new v h
  simp [hp, Nat.add_assoc]

theorem Table.mem_put_new {α : Type} {t : Table α} {k : Nat} {v : α} (h : Table.find t k = none) {e : Nat × α} :
    e ∈ Table.put t k v ↔ e = (k, v) ∨ e ∈ t := by
  obtain ⟨a, b, rfl, hp⟩ := Table.put_new v h
  simp only [hp, List.mem_append, List.mem_cons]
  exact or_left_comm

section
variable {a : Account} {u place : Nat} {x : Line} {v w : Invoice} {n : InvoiceNumber}

/-- The invoice once a line has been filed on it. -/
def Invoice.withLine (v : Invoice) (place : Nat) (x : Line) : Invoice :=
  { v with lines := v.lines ++ [place], total := v.total + x.total }

theorem Account.fileLine_eq (a : Account) (place : Nat) (x : Line) (u : Nat) : a.fileLine place x u =
    { a with
      invoices := a.invoices.map (fun i => if i.number = x.invoice then i.withLine place x else i),
      lines := a.lines.put place x,
      buyers := a.buyers.modify u (fun b => { b with exposure := b.exposure + x.total, lines := b.lines + 1 }) } := rfl

theorem Account.fileLine_numbers (a : Account) (place : Nat) (x : Line) (u : Nat) :
    (a.fileLine place x u).invoices.map Invoice.number = a.invoices.map Invoice.number :=
  numbers_map fun v => by split <;> rfl

theorem Account.invoice_fileLine (a : Account) (place : Nat) (x : Line) (u : Nat) (n : InvoiceNumber) :
    (a.fileLine place x u).invoice n =
      (a.invoice n).map (fun i => if i.number = x.invoice then i.withLine place x else i) :=
  Account.invoice_of_map (a := a) rfl (fun v => by split <;> rfl) n

/-- An invoice that the line is not filed on keeps its lines. -/
theorem Account.Bills.linesOf_fileLine (h : a.Bills v) (hplace : Table.find a.lines place = none) :
    (a.fileLine place x u).linesOf v = a.linesOf v := by
  refine List.filterMap_congr fun i hi => Table.find_put_ne _ _ fun e => ?_
  obtain ⟨y, hy, -⟩ := h.filed i hi
  simp [e, hplace] at hy

theorem Account.Bills.fileLine_other (h : a.Bills v) (hplace : Table.find a.lines place = none) :
    (a.fileLine place x u).Bills v := by
  have hlines := h.linesOf_fileLine (x := x) (u := u) hplace
  refine ⟨h.fits, fun i hi => ?_, hlines ▸ h.total, hlines ▸ h.numbered⟩
  obtain ⟨y, hy, hyv⟩ := h.filed i hi
  refine ⟨y, (Table.find_put_ne _ _ fun e => ?_).trans hy, hyv⟩
  simp [e, hplace] at hy

theorem Account.Bills.fileLine (h : a.Bills v) (hplace : Table.find a.lines place = none) (hv : v.number = x.invoice)
    (hx : x.number = v.lines.length + 1) (hroom : v.lines.length < 48) : (a.fileLine place x u).Bills (v.withLine place x) := by
  have hof : (a.fileLine place x u).linesOf (v.withLine place x) = a.linesOf v ++ [x] := by
    have hput : Table.find (a.fileLine place x u).lines place = some x := Table.find_put_self _ _ _
    rw [Account.linesOf, Invoice.withLine, List.filterMap_append, List.filterMap_cons_some hput]
    exact congrArg (· ++ [x]) (h.linesOf_fileLine hplace)
  refine ⟨by simpa [Invoice.withLine] using hroom, fun i hi => ?_, ?_, ?_⟩
  · rcases List.mem_append.mp hi with hi | hi
    · exact (h.fileLine_other hplace).filed i hi
    · exact ⟨x, List.mem_singleton.mp hi ▸ Table.find_put_self _ _ _, hv.symm⟩
  · rw [hof]
    simp [Invoice.withLine, h.total]
  · rw [hof, List.map_append, h.numbered]
    simp [Invoice.withLine, List.range_succ, hx]

/-- The line is on its own invoice alone. -/
theorem Account.PoolOk.fileLine (h : a.PoolOk (some n)) (hn : x.invoice = n) (hv : a.invoice n = some v)
    (hroom : v.lines.length < 48) (hx : x.number = v.lines.length + 1) (hplace : Table.find a.lines place = none) :
    (a.fileLine place x u).PoolOk (some n) := by
  obtain ⟨hm, hvn⟩ := Account.mem_of_invoice hv
  have hvx : v.number = x.invoice := hvn.trans hn.symm
  have hmem : ∀ w ∈ (a.fileLine place x u).invoices,
      w = v.withLine place x ∨ (w ∈ a.invoices ∧ w.number ≠ n) := fun w hw => by
    obtain ⟨i, hi, rfl⟩ := List.mem_map.mp hw
    split
    · next he => exact .inl (by rw [eq_of_number_eq h.numbers hi hm (he.trans hvx.symm)]; rfl)
    · next he => exact .inr ⟨hi, fun e => he (e.trans hn.symm)⟩
  have hin : v.withLine place x ∈ (a.fileLine place x u).invoices :=
    List.mem_map.mpr ⟨v, hm, if_pos hvx⟩
  have hkept : ∀ w ∈ a.invoices, w.number ≠ n → w ∈ (a.fileLine place x u).invoices := fun w hw hwn =>
    List.mem_map.mpr ⟨w, hw, if_neg fun e => hwn (e.trans hn)⟩
  refine ⟨(a.fileLine_numbers place x u).symm ▸ h.numbers, ?_, fun e he => ?_, fun w hw => ?_, fun w hw hhand => ?_⟩
  · obtain ⟨pre, post, hsplit⟩ := List.mem_iff_append.mp hm
    have hnew : (a.fileLine place x u).invoices = pre ++ v.withLine place x :: post := by
      rw [Account.fileLine_eq, ← hvx, hsplit]
      exact map_change_one (hsplit ▸ h.numbers)
    have hperm : ((a.fileLine place x u).invoices.flatMap Invoice.lines).Perm (place :: a.invoices.flatMap Invoice.lines) := by
      rw [hnew, hsplit]
      simp only [List.flatMap_append, List.flatMap_cons, Invoice.withLine, List.append_assoc, List.singleton_append]
      rw [← List.append_assoc, ← List.append_assoc]
      exact List.perm_middle
    refine hperm.nodup_iff.mpr (List.nodup_cons.mpr ⟨fun hi => ?_, h.places⟩)
    obtain ⟨w, hw, hiw⟩ := List.mem_flatMap.mp hi
    obtain ⟨y, hy, -⟩ := (h.bills w hw).filed place hiw
    simp [hplace] at hy
  · rcases (Table.mem_put_new hplace).mp he with rfl | he
    · exact ⟨_, hin, hvx, by simp [Invoice.withLine]⟩
    · obtain ⟨w, hw, hwe, hi⟩ := h.owned e he
      by_cases hwn : w.number = n
      · obtain rfl := eq_of_number_eq h.numbers hw hm (hwn.trans hvn.symm)
        exact ⟨_, hin, hwe, List.mem_append_left _ hi⟩
      · exact ⟨w, hkept w hw hwn, hwe, hi⟩
  · rcases hmem w hw with rfl | ⟨hw, -⟩
    · exact (h.bills v hm).fileLine hplace hvx hx hroom
    · exact (h.bills w hw).fileLine_other hplace
  · rcases hmem w hw with rfl | ⟨hw, -⟩
    · exact absurd (congrArg some hvn.symm) hhand
    · exact h.sized w hw hhand

theorem Account.CreditOk.fileLine (h : a.CreditOk) (hu : x.invoice.buyer = u) (hplace : Table.find a.lines place = none) :
    (a.fileLine place x u).CreditOk := by
  obtain ⟨hhas, hcred⟩ := Account.creditOk_iff.mp h
  have hnumbers := a.fileLine_numbers place x u
  have howed : ∀ t, ((a.fileLine place x u).owed t).Perm (if t = u then x :: a.owed t else a.owed t) := fun t => by
    refine ((Table.vals_put_new x hplace).filter _).trans (.of_eq ?_)
    rw [List.filter_cons]
    split
    · next hd => rw [if_pos ((of_decide_eq_true hd).symm.trans hu)]; rfl
    · next hd => rw [if_neg fun e => hd (decide_eq_true (hu.trans e.symm))]; rfl
  refine Account.creditOk_iff.mpr ⟨fun w hw => ?_, fun e he => ?_⟩
  · obtain ⟨i, hi, hiw⟩ := List.mem_map.mp (hnumbers ▸ List.mem_map_of_mem (f := Invoice.number) hw)
    have := hhas i hi
    rw [Account.fileLine_eq, Table.has, Table.find_modify, ← hiw]
    split <;> simpa [Table.has] using this
  · obtain ⟨y, hy, rfl⟩ := List.mem_map.mp he
    obtain ⟨hexp, hlines, hopen, hseq⟩ := hcred y hy
    have hseq := (Account.invoice_none_of_numbers hnumbers _).mpr hseq
    have hsum := ((howed y.1).map Line.total).sum_eq
    have hlen := (howed y.1).length_eq
    split
    · next hyu =>
      have hyu : y.1 = u := hyu
      rw [if_pos hyu] at hsum hlen
      refine ⟨?_, ?_, hopen, hseq⟩
      · exact (congrArg (· + x.total) hexp).trans ((Nat.add_comm _ _).trans (by simpa using hsum.symm))
      · exact (congrArg (· + 1) hlines).trans hlen.symm
    · next hyu =>
      have hyu : ¬ y.1 = u := hyu
      rw [if_neg hyu] at hsum hlen
      exact ⟨hexp.trans hsum.symm, hlines.trans hlen.symm, hopen, hseq⟩

theorem Account.Agrees.fileLine (h : a.Agrees (some n)) (hn : x.invoice = n) (hu : n.buyer = u) (hv : a.invoice n = some v)
    (hs : v.state = .opened) (hroom : v.lines.length < 48) (hx : x.number = v.lines.length + 1)
    (hplace : Table.find a.lines place = none) : (a.fileLine place x u).Agrees (some n) := by
  obtain ⟨sent, current, due, hp⟩ := h.phased
  refine ⟨h.pool.fileLine hn hv hroom hx hplace, h.credit.fileLine (hn ▸ hu) hplace,
    h.listed.map (g := fun i => if i.number = x.invoice then i.withLine place x else i) rfl rfl rfl
      (fun i => by split <;> exact ⟨rfl, rfl⟩) (fun i _ => by split <;> rfl),
    sent, current, due, ?_, hp.areSent, hp.isCurrent, hp.areDue, hp.cursor⟩
  refine (Account.invoices_of_map (a := a) (b := a.fileLine place x u) rfl (fun i => by split <;> rfl) _).trans ?_
  refine (map_change_absent ?_).trans hp.queue
  exact hn ▸ h.listed.absent_of_open hv hs

/-! ### The invoice a line is filed on (R116) -/

/-- The open invoice of a buyer, or the one that opens for it, holds fewer than 48 lines. -/
theorem Account.InvoicesOk.withOpenInvoice {b : Buyer} (h : a.InvoicesOk) (hb : Table.find a.buyers u = some b)
    (hfit : b.openInvoice = none → a.invoices.length < Config.maxInvoices) :
    ∃ v, (a.withOpenInvoice u b).1.Agrees (some (a.withOpenInvoice u b).2) ∧ (a.withOpenInvoice u b).2.buyer = u ∧
      (a.withOpenInvoice u b).1.invoice (a.withOpenInvoice u b).2 = some v ∧ v.state = .opened ∧ v.lines.length < 48 := by
  obtain ⟨hagrees, -⟩ := Account.invoicesOk_iff.mp h
  unfold Account.withOpenInvoice
  split
  · next n hn =>
    have hfind := (hagrees.credit.find hb).opened.symm.trans hn
    have hmem := List.mem_of_find?_eq_some hfind
    rw [hagrees.listed.opens] at hmem
    obtain ⟨v, hv, hvn⟩ := List.mem_map.mp hmem
    obtain ⟨hv, hs⟩ := List.mem_filter.mp hv
    have hs := of_decide_eq_true hs
    exact ⟨v, hagrees.inHand _, by simpa using List.find?_some hfind,
      (Account.invoice_eq_some hagrees.pool.numbers).mpr ⟨hv, hvn⟩, hs, (hagrees.pool.sized v hv (by simp)).2 hs⟩
  · next hn =>
    refine ⟨a.newInvoice u b, hagrees.opens hb hn (hfit hn), rfl, ?_, rfl, Nat.zero_lt_succ _⟩
    rw [Account.invoice_opened (hagrees.credit.next_fresh hb), if_pos rfl]

end

/-! ### What sending leaves alone -/

/-- The account but for the states of the invoices and the cursor. -/
def Account.unsent (a : Account) : Account := { a with invoices := [], cursor := none }

section
variable {p q : Part}

theorem Account.unsent_eq {a b : Account} (h : b.unsent = a.unsent) :
    b.lines = a.lines ∧ b.storeLow = a.storeLow ∧ b.openList = a.openList := by
  simp only [Account.unsent, Account.mk.injEq] at h
  obtain ⟨-, -, -, -, -, -, hlines, -, hopen, -, -, hlow⟩ := h
  exact ⟨hlines, hlow, hopen⟩

theorem Part.tryBegin_unsent (h : p.tryBegin = some q) : q.account.unsent = p.account.unsent := by
  obtain ⟨v, -, -, rfl⟩ := Part.tryBegin_some h
  rfl

@[simp] theorem finishSending_unsent (n : InvoiceNumber) (p : Part) :
    (finishSending n p).account.unsent = p.account.unsent := by
  rw [finishSending_eq]
  cases h : (p.finishing n).tryBegin with
  | none => rfl
  | some q => exact (Part.tryBegin_unsent h).trans rfl

theorem Account.cursor_unsent (a : Account) (k : Option Cursor) : ({ a with cursor := k } : Account).unsent = a.unsent := rfl

@[simp] theorem placeNext_unsent (l : LinkId) (k : Cursor) (v : Invoice) (p : Part) :
    (placeNext l k v p).account.unsent = p.account.unsent := by
  simp only [placeNext]; (repeat' split) <;> simp [Account.cursor_unsent]

@[simp] theorem pump_unsent (turns : Nat) (p : Part) : (pump turns p).account.unsent = p.account.unsent := by
  induction turns generalizing p with
  | zero => rfl
  | succ t ih => unfold pump; (repeat' split) <;> simp [ih]

@[simp] theorem startCheck_unsent (p : Part) : (startCheck p).account.unsent = p.account.unsent := by
  unfold startCheck
  split
  · rfl
  · next q h => simpa using Part.tryBegin_unsent h

theorem closeInvoice_unsent (cause : CloseCause) (p : Part) (n : InvoiceNumber) :
    (closeInvoice cause p n).account.unsent = (p.account.close n cause).unsent := by simp [closeInvoice]

/-- A close leaves the lines and the flag, and takes one invoice off the open list. -/
theorem closeInvoice_leaves (cause : CloseCause) (p : Part) (n : InvoiceNumber) :
    (closeInvoice cause p n).account.lines = p.account.lines ∧
      (closeInvoice cause p n).account.storeLow = p.account.storeLow ∧
      (closeInvoice cause p n).account.openList = p.account.openList.filter (fun x => decide (x ≠ n)) :=
  Account.unsent_eq (closeInvoice_unsent cause p n)

theorem startCheck_invoicesOk (h : p.account.InvoicesOk) : (startCheck p).account.InvoicesOk := by
  obtain ⟨hagrees, hflag⟩ := Account.invoicesOk_iff.mp h
  obtain ⟨hlines, hlow, -⟩ := Account.unsent_eq (startCheck_unsent p)
  exact Account.invoicesOk_iff.mpr ⟨startCheck_agrees hagrees, hflag.of_same hlow hlines⟩

theorem pump_invoicesOk (turns : Nat) (h : p.account.InvoicesOk) : (pump turns p).account.InvoicesOk := by
  obtain ⟨hagrees, hflag⟩ := Account.invoicesOk_iff.mp h
  obtain ⟨hlines, hlow, -⟩ := Account.unsent_eq (pump_unsent turns p)
  exact Account.invoicesOk_iff.mpr ⟨pump_agrees turns hagrees, hflag.of_same hlow hlines⟩

theorem closeInvoice_agrees {cause : CloseCause} {n : InvoiceNumber} {v : Invoice} (h : p.account.Agrees (some n))
    (hv : p.account.invoice n = some v) (hs : v.state = .opened) (hone : 1 ≤ v.lines.length) :
    (closeInvoice cause p n).account.Agrees none :=
  startCheck_agrees (p := p.updAccount fun a => a.close n cause) (h.close hv hs hone)

/-- An invoice of the open list is closed. -/
theorem closeInvoice_invoicesOk {cause : CloseCause} {n : InvoiceNumber} (h : p.account.InvoicesOk) (hn : n ∈ p.account.openList) :
    (closeInvoice cause p n).account.InvoicesOk := by
  obtain ⟨hagrees, hflag⟩ := Account.invoicesOk_iff.mp h
  rw [hagrees.listed.opens] at hn
  obtain ⟨v, hv, hvn⟩ := List.mem_map.mp hn
  obtain ⟨hv, hs⟩ := List.mem_filter.mp hv
  obtain ⟨hlines, hlow, -⟩ := closeInvoice_leaves cause p n
  exact Account.invoicesOk_iff.mpr ⟨closeInvoice_agrees (hagrees.inHand _)
    ((Account.invoice_eq_some hagrees.pool.numbers).mpr ⟨hv, hvn⟩) (of_decide_eq_true hs) (hagrees.pool.sized v hv (by simp)).1,
    hflag.of_same hlow hlines⟩

/-! ### A reservation granted (R115, R116, R118) -/

/-- The warning sets the flag, and says so to the consoles. -/
theorem warnStoreLow_account (p : Part) : (warnStoreLow p).account =
    if p.account.crossesStoreLow then { p.account with storeLow := true } else p.account := by
  unfold warnStoreLow
  split
  · exact foldl_reads (φ := Part.account) (fun p c => (warnConsole_outside p c).2) _ _
  · rfl

/-- One line more, and the store-low check. -/
theorem warnStoreLow_invoicesOk {a : Account} (h : p.account.Agrees none) (hflag : a.FlagOk)
    (hlow : p.account.storeLow = a.storeLow) (hlines : p.account.lines.length = a.lines.length + 1) :
    (warnStoreLow p).account.InvoicesOk := by
  have hlow : p.account.storeLow = decide (4096 - a.lines.length < 64) := hlow.trans hflag
  rw [warnStoreLow_account]
  split
  · next hc =>
    refine Account.invoicesOk_iff.mpr ⟨h.of_ledger rfl, ?_⟩
    obtain ⟨hfree, -⟩ := Bool.and_eq_true_iff.mp hc
    exact (decide_eq_true (of_decide_eq_true hfree)).symm
  · next hc =>
    refine Account.invoicesOk_iff.mpr ⟨h, hlow.trans ?_⟩
    rw [Account.crossesStoreLow, hlow, Bool.and_eq_true, not_and] at hc
    by_cases hfree : 4096 - p.account.lines.length < 64
    · have hold : 4096 - a.lines.length < 64 := by simpa using hc (decide_eq_true hfree)
      rw [decide_eq_true hold, decide_eq_true hfree]
    · rw [decide_eq_false hfree, decide_eq_false (by omega)]

/-- The lowest place from one on that a store in form does not hold is free. -/
theorem Table.find_lowestFree {α : Type} {t : Table α} (hr : Table.rising t = true) {k : Nat} (hk : ∀ e ∈ t, k ≤ e.1) :
    Table.find t (Table.lowestFree t k) = none := by
  rw [Table.rising_iff] at hr
  induction t generalizing k with
  | nil => rfl
  | cons e rest ih =>
    obtain ⟨i, w⟩ := e
    simp only [List.map_cons, List.pairwise_cons, List.mem_map] at hr
    have hrest : ∀ e ∈ rest, i < e.1 := fun e he => hr.1 e.1 ⟨e, he, rfl⟩
    have habsent : ∀ j, (∀ e ∈ rest, j < e.1) → Table.find rest j = none := fun j hj => by
      rw [Option.eq_none_iff_forall_ne_some]
      exact fun x hx => absurd (hj _ (Table.mem_of_find hx)) (lt_irrefl _)
    simp only [Table.lowestFree]
    split
    · next hi =>
      have hbound := (Table.lowestFree_bounds rest (k + 1)).1
      rw [Table.find, if_neg (by omega)]
      exact ih hr.2 fun e he => hi ▸ hrest e he
    · next hi =>
      have hki : k ≤ i := hk _ List.mem_cons_self
      rw [Table.find, if_neg hi]
      exact habsent k fun e he => lt_of_le_of_lt hki (hrest e he)

theorem Account.freePlace_free {a : Account} (h : a.TablesOk) : Table.find a.lines a.freePlace = none :=
  Table.find_lowestFree h.linesRise fun e he => (h.places e.1 e.2 ((Table.find_iff_mem h.linesRise e.1 e.2).mpr he)).1

theorem grantReservation_invoicesOk {c : ClockId} {r : Reservation} {b : Buyer} (ht : p.account.TablesOk)
    (h : p.account.InvoicesOk) (hb : Table.find p.account.buyers r.buyer = some b)
    (hfit : b.openInvoice = none → p.account.invoices.length < Config.maxInvoices) :
    (grantReservation c r b p).account.InvoicesOk := by
  obtain ⟨v, hopen, hbuyer, hv, hs, hroom⟩ := h.withOpenInvoice hb hfit
  have hflag := (Account.invoicesOk_iff.mp h).2
  have hsame : (p.account.withOpenInvoice r.buyer b).1.lines = p.account.lines ∧
      (p.account.withOpenInvoice r.buyer b).1.storeLow = p.account.storeLow := by
    unfold Account.withOpenInvoice
    split <;> exact ⟨rfl, rfl⟩
  have hplace := Account.freePlace_free ht
  simp only [grantReservation, Part.toClock_account]
  generalize hx : Account.lineOf _ c r _ _ _ = x
  have hxn : x.invoice = (p.account.withOpenInvoice r.buyer b).2 := hx ▸ rfl
  have hxk : x.number = v.lines.length + 1 := by
    rw [← hx]
    simp [Account.lineOf, Account.lineCount, hv]
  generalize hq : p.updAccount _ = q
  have hqa : q.account = (p.account.withOpenInvoice r.buyer b).1.fileLine p.account.freePlace x r.buyer := hq ▸ rfl
  have hfiled : q.account.Agrees (some (p.account.withOpenInvoice r.buyer b).2) :=
    hqa ▸ hopen.fileLine hxn hbuyer hv hs hroom hxk (hsame.1 ▸ hplace)
  have hinvoice : q.account.invoice (p.account.withOpenInvoice r.buyer b).2 = some (v.withLine p.account.freePlace x) := by
    rw [hqa, Account.invoice_fileLine, hv, Option.map_some, if_pos ((Account.mem_of_invoice hv).2.trans hxn.symm)]
  have hcount : (v.withLine p.account.freePlace x).lines.length = v.lines.length + 1 := by simp [Invoice.withLine]
  have hqlow : q.account.storeLow = p.account.storeLow := hqa ▸ hsame.2
  have hqlines : q.account.lines.length = p.account.lines.length + 1 := by
    rw [hqa, Account.fileLine_eq, hsame.1]
    exact Table.length_put_new x hplace
  split
  · obtain ⟨hlines, hlow, -⟩ := closeInvoice_leaves .linesFull q (p.account.withOpenInvoice r.buyer b).2
    exact warnStoreLow_invoicesOk (closeInvoice_agrees hfiled hinvoice hs (by omega)) hflag (hlow.trans hqlow)
      (hlines ▸ hqlines)
  · next hless =>
    rw [Account.lineCount, hinvoice, Config.maxInvoiceLines] at hless
    exact warnStoreLow_invoicesOk (hfiled.putAway hinvoice (by omega) fun _ => not_le.mp hless) hflag hqlow hqlines

theorem takeReservation_invoicesOk {c : ClockId} {r : Reservation} (ht : p.account.TablesOk) (h : p.account.InvoicesOk) :
    (takeReservation c r p).account.InvoicesOk := by
  unfold takeReservation
  split
  · exact h
  · next b hr hb => exact grantReservation_invoicesOk ht h hb (Account.reservation_room hr hb).2
  · exact h

end

end Sys2Proof.Machine
end

section
/-! Which operations of the Account Unit leave the books alone, and what the others do with them (R97 to R100, R122,
R131, R164, R166). -/

namespace Sys2Proof.Machine

/-! ### Operations that leave the books alone -/

theorem Account.modifyBuyer_books (a : Account) (u : Nat) (f : Buyer → Buyer) (h : ∀ b, (f b).entry = b.entry) :
    ({ a with buyers := a.buyers.modify u f } : Account).books = a.books := by
  simp [Account.books, Account.ledger, Table.reads_modify h]

@[simp] theorem Part.updBuyer_books {p : Part} {u : Nat} {f : Buyer → Buyer} (h : ∀ b, (f b).entry = b.entry) :
    (p.updBuyer u f).account.books = p.account.books := Account.modifyBuyer_books _ _ _ h
@[simp] theorem Part.updHall_books {p : Part} {f : Hall → Hall} (h : ∀ x, (f x).day = x.day) :
    (p.updHall f).account.books = p.account.books := by
  simp [Part.updHall, Account.books, Account.ledger, h]
@[simp] theorem refreshDesk_books (i : Nat) (p : Part) : (refreshDesk i p).account.books = p.account.books := rfl
@[simp] theorem Account.unbind_books (a : Account) (i u : Nat) : (a.unbind i u).books = a.books :=
  Account.modifyBuyer_books { a with desks := a.desks.del i } u _ fun _ => rfl
@[simp] theorem Account.bind_books (a : Account) (i u now : Nat) : (a.bind i u now).books = a.books :=
  Account.modifyBuyer_books { a with desks := a.desks.put i ⟨u, now⟩ } u _ fun _ => rfl
@[simp] theorem tellLoggedOut_books (i : Nat) (r : LogoutReason) (u : Nat) (tag : Option Nat) (p : Part) :
    (tellLoggedOut i r u tag p).account.books = p.account.books := by
  unfold tellLoggedOut; (repeat' split) <;> simp
@[simp] theorem sendEndRequests_books (u : Nat) (t : Option DeskTarget) (p : Part) :
    (sendEndRequests u t p).account.books = p.account.books :=
  Account.modifyBuyer_books _ u _ fun _ => rfl
@[simp] theorem sendNotices_books (u : Nat) (t : Option DeskTarget) (p : Part) :
    (sendNotices u t p).account.books = p.account.books := by
  unfold sendNotices; (repeat' split) <;> simp
@[simp] theorem logOut_books (i u : Nat) (r : LogoutReason) (tag : Option Nat) (p : Part) :
    (logOut i u r tag p).account.books = p.account.books := by simp [logOut]
@[simp] theorem replaceOld_books (i : Nat) (p : Part) : (replaceOld i p).account.books = p.account.books := by
  unfold replaceOld; split <;> simp
@[simp] theorem releaseOld_books (b : Buyer) (u : Nat) (p : Part) : (releaseOld b u p).account.books = p.account.books := by
  unfold releaseOld; split <;> simp
@[simp] theorem noticeIfMoved_books (b : Buyer) (u : Nat) (t : DeskTarget) (p : Part) :
    (noticeIfMoved b u t p).account.books = p.account.books := by
  unfold noticeIfMoved; split <;> simp
@[simp] theorem bindLogin_books (l : LinkId) (m : Message) (d i u : Nat) (b : Buyer) (p : Part) :
    (bindLogin l m d i u b p).account.books = p.account.books := by
  unfold bindLogin; split <;> simp
@[simp] theorem takeLogin_books (l : LinkId) (m : Message) (p : Part) : (takeLogin l m p).account.books = p.account.books := by
  simp only [takeLogin, refuseDesk]; (repeat' split) <;> simp
theorem boundDesk_books {l : LinkId} {m : Message} {f : Nat → Nat → Part → Part}
    (h : ∀ i u p, (f i u p).account.books = p.account.books) (p : Part) :
    (boundDesk l m f p).account.books = p.account.books := by
  unfold boundDesk; (repeat' split) <;> simp [h]
@[simp] theorem takeLogout_books (l : LinkId) (m : Message) (i u : Nat) (p : Part) :
    (takeLogout l m i u p).account.books = p.account.books := by simp [takeLogout]
@[simp] theorem takePresent_books (l : LinkId) (m : Message) (i u : Nat) (p : Part) :
    (takePresent l m i u p).account.books = p.account.books := by simp [takePresent]
@[simp] theorem takeCancelOrder_books (l : LinkId) (m : Message) (i u : Nat) (p : Part) :
    (takeCancelOrder l m i u p).account.books = p.account.books := by
  unfold takeCancelOrder; split <;> simp
@[simp] theorem ageStep_books (i : Nat) (p : Part) : (ageStep i p).account.books = p.account.books := by
  unfold ageStep; split <;> simp
@[simp] theorem unbindLost_books (l : LinkId) (r : List Region) (p : Part) (e : Nat × Binding) :
    (unbindLost l r p e).account.books = p.account.books := by
  unfold unbindLost; split <;> simp
@[simp] theorem deskGroupLost_books (l : LinkId) (p : Part) : (deskGroupLost l p).account.books = p.account.books := by
  unfold deskGroupLost
  split
  · rfl
  · exact foldl_reads (φ := fun p => p.account.books) (fun p e => unbindLost_books l _ p e) _ p
@[simp] theorem takeTariffLoad_books (l : LinkId) (m : Message) (p : Part) :
    (takeTariffLoad l m p).account.books = p.account.books := rfl
@[simp] theorem noticeHall_account (h : HallState) (p : Part) : (noticeHall h p).account = p.account := rfl
@[simp] theorem sendDayState_account (n : Option (Nat × Nat)) (p : Part) : (sendDayState n p).account = p.account := by
  simp [sendDayState, foldl_reads (φ := Part.account)]
@[simp] theorem startClosing_books (l : LinkId) (m : Message) (p : Part) :
    (startClosing l m p).account.books = p.account.books := by simp [startClosing]
@[simp] theorem takeCloseDay_books (l : LinkId) (m : Message) (p : Part) :
    (takeCloseDay l m p).account.books = p.account.books := by
  unfold takeCloseDay; split <;> simp
@[simp] theorem dropForDay_books (p : Part) (e : Nat × Binding) : (dropForDay p e).account.books = p.account.books := by
  simp [dropForDay]
@[simp] theorem unbindAll_books (p : Part) : (unbindAll p).account.books = p.account.books := by
  refine Eq.trans ?_ (foldl_reads (φ := fun p => p.account.books) dropForDay_books p.account.desks p)
  simp only [unbindAll, Part.updAccount_account, Account.books, Account.ledger]
  rw [Table.reads_mapAll (f := fun b : Buyer => { b with orderMark := false }) fun _ => rfl]
@[simp] theorem updateBuyer_books (l : LinkId) (m : Message) (id : Nat) (b : Buyer) (p : Part) :
    (updateBuyer l m id b p).account.books = p.account.books :=
  (sendNotices_books id none _).trans (Part.updBuyer_books fun _ => rfl)
@[simp] theorem takeCreditLimit_books (l : LinkId) (m : Message) (p : Part) :
    (takeCreditLimit l m p).account.books = p.account.books := by
  simp only [takeCreditLimit]
  split
  · rfl
  · exact Part.updBuyer_books fun _ => rfl
@[simp] theorem setBlocked_books (l : LinkId) (flag : Bool) (m : Message) (p : Part) :
    (setBlocked l flag m p).account.books = p.account.books := by
  simp only [setBlocked]
  repeat' split
  · rfl
  · rfl
  · exact (sendNotices_books _ none _).trans (Part.updBuyer_books fun _ => rfl)
@[simp] theorem dropBuyer_books (id : Nat) (b : Buyer) (p : Part) : (dropBuyer id b p).account.books = p.account.books := by
  unfold dropBuyer; (repeat' split) <;> simp
@[simp] theorem refuseBid_books (b : BidIn) (u : Nat) (e : Cause) (p : Part) :
    (refuseBid b u e p).account.books = p.account.books := by simp [refuseBid]
@[simp] theorem refuseMalformedBid_books (l : LinkId) (m : Message) (p : Part) :
    (refuseMalformedBid l m p).account.books = p.account.books := by simp [refuseMalformedBid]
@[simp] theorem handBid_books (b : BidIn) (u : Nat) (r : Buyer) (p : Part) :
    (handBid b u r p).account.books = p.account.books := by simp [handBid]
@[simp] theorem handPlacement_books (b : BidIn) (u : Nat) (r : Buyer) (p : Part) :
    (handPlacement b u r p).account.books = p.account.books :=
  Part.updBuyer_books fun _ => rfl
@[simp] theorem checkBuyer_books (b : BidIn) (u : Nat) (p : Part) : (checkBuyer b u p).account.books = p.account.books := by
  unfold checkBuyer; (repeat' split) <;> simp
@[simp] theorem checkDesk_books (b : BidIn) (p : Part) : (checkDesk b p).account.books = p.account.books := by
  unfold checkDesk; (repeat' split) <;> simp
@[simp] theorem takeBid_books (l : LinkId) (m : Message) (p : Part) : (takeBid l m p).account.books = p.account.books := by
  unfold takeBid; (repeat' split) <;> simp

section
variable {a : Account} {p : Part} {l : LinkId} {m : Message} {u : Nat}

/-! ### Buyers come and go (R97, R99, R100) -/

/-- A buyer without a record has no lines, no open invoice, and no invoice of any sequence. -/
theorem Account.Agrees.unknown {hand : Option InvoiceNumber} (h : a.Agrees hand) (hu : Table.find a.buyers u = none) :
    a.owed u = [] ∧ (∀ n ∈ a.openList, n.buyer ≠ u) ∧ ∀ v ∈ a.invoices, v.number.buyer ≠ u := by
  have hnone : ∀ v ∈ a.invoices, v.number.buyer ≠ u := fun v hv e => by
    have := (Account.creditOk_iff.mp h.credit).1 v hv
    simp [Table.has, e, hu] at this
  refine ⟨List.filter_eq_nil_iff.mpr fun x hx => ?_, fun n hn => ?_, hnone⟩
  · obtain ⟨e, he, rfl⟩ := List.mem_map.mp hx
    obtain ⟨v, hv, hve, -⟩ := h.pool.owned e he
    simpa [← hve] using hnone v hv
  · rw [h.listed.opens] at hn
    obtain ⟨v, hv, rfl⟩ := List.mem_map.mp hn
    exact hnone v (List.mem_filter.mp hv).1

theorem Account.InvoicesOk.putBuyer {limit point : Nat} {members : ClockSet} (h : a.InvoicesOk)
    (hu : Table.find a.buyers u = none) :
    ({ a with buyers := a.buyers.put u (Buyer.fresh limit members point) } : Account).InvoicesOk := by
  obtain ⟨hagrees, hflag⟩ := Account.invoicesOk_iff.mp h
  obtain ⟨howed, hopen, hnone⟩ := hagrees.unknown hu
  obtain ⟨hhas, hcred⟩ := Account.creditOk_iff.mp hagrees.credit
  refine Account.invoicesOk_iff.mpr ⟨hagrees.of_credit (Account.creditOk_iff.mpr ⟨fun v hv => ?_, fun e he => ?_⟩)
    rfl rfl rfl rfl rfl, hflag⟩
  · have := hhas v hv
    rw [Table.has, Table.find_put_ne _ _ (hnone v hv)]
    exact this
  · rcases (Table.mem_put_new hu).mp he with rfl | he
    · refine ⟨?_, ?_, Eq.symm (List.find?_eq_none.mpr fun n hn => by simpa using hopen n hn),
        Account.invoice_eq_none.mpr fun v hv e => hnone v hv (congrArg InvoiceNumber.buyer e)⟩
      · exact (congrArg (fun xs => (xs.map Line.total).sum) howed).symm
      · exact (congrArg List.length howed).symm
    · exact (hcred e he).of_same rfl rfl rfl rfl rfl

theorem takeBuyerSet_invoicesOk (h : p.account.InvoicesOk) : (takeBuyerSet l m p).account.InvoicesOk := by
  simp only [takeBuyerSet]
  split
  · exact h
  · split
    · exact h.of_books (by simp)
    · next hu =>
      split
      · exact h.putBuyer hu
      · exact h

/-- A buyer without lines has no invoice. -/
theorem Account.Agrees.no_invoice (h : a.Agrees none) (hr : Table.rising a.lines = true) (hu : a.owed u = []) :
    ∀ v ∈ a.invoices, v.number.buyer ≠ u := by
  rintro v hv rfl
  have hlen := (h.pool.bills v hv).length_linesOf
  have howed := (h.pool.owed_perm hr hv v.number.buyer).length_eq
  have hone := (h.pool.sized v hv (by simp)).1
  simp only [hu, if_pos, List.length_append, List.length_nil] at howed
  omega

theorem Account.InvoicesOk.delBuyer (h : a.InvoicesOk) (hr : Table.rising a.lines = true) (hu : a.owed u = []) :
    ({ a with buyers := a.buyers.del u } : Account).InvoicesOk := by
  obtain ⟨hagrees, hflag⟩ := Account.invoicesOk_iff.mp h
  obtain ⟨hhas, hcred⟩ := Account.creditOk_iff.mp hagrees.credit
  refine Account.invoicesOk_iff.mpr ⟨hagrees.of_credit (Account.creditOk_iff.mpr ⟨fun v hv => ?_, fun e he => ?_⟩)
    rfl rfl rfl rfl rfl, hflag⟩
  · have := hhas v hv
    rw [Table.has, Table.find_del, if_neg (hagrees.no_invoice hr hu v hv)]
    exact this
  · exact (hcred e (List.mem_filter.mp he).1).of_same rfl rfl rfl rfl rfl

theorem takeBuyerRemove_invoicesOk (ht : p.account.TablesOk) (h : p.account.InvoicesOk) :
    (takeBuyerRemove l m p).account.InvoicesOk := by
  simp only [takeBuyerRemove]
  split
  · exact h
  · next b hb =>
    split
    · exact h
    · next hlines =>
      have hbooks := dropBuyer_books (fieldAt m.body 0 3) b p
      have hsame : (dropBuyer (fieldAt m.body 0 3) b p).account.lines = p.account.lines := congrArg (·.1.2.1) hbooks
      have howed : (dropBuyer (fieldAt m.body 0 3) b p).account.owed (fieldAt m.body 0 3) = [] := by
        have hcount := ((Account.invoicesOk_iff.mp h).1.credit.find hb).lines
        rw [Account.owed, hsame]
        exact List.length_eq_zero_iff.mp (hcount.symm.trans (Nat.eq_zero_of_not_pos hlines))
      exact (h.of_books hbooks).delBuyer (hsame ▸ ht.linesRise) howed

/-! ### The day (R113, R122, R127, R164, R166) -/

theorem Account.InvoicesOk.openDay (h : a.InvoicesOk) (hfit : a.invoices.length ≤ Config.maxInvoices) {b : Account} {day : Nat}
    (hb : b.books = ({ a with hall := { a.hall with day := day } } : Account).books) :
    (b.resetSequences day).InvoicesOk := by
  obtain ⟨hagrees, hflag⟩ := Account.invoicesOk_iff.mp h
  obtain ⟨hhas, hcred⟩ := Account.creditOk_iff.mp hagrees.credit
  obtain ⟨hledger, hlow⟩ := Prod.mk.inj hb
  simp only [Account.ledger, Prod.mk.injEq] at hledger
  obtain ⟨hbuyers, hlines, hinv, hopen, hqueue, hcursor, hday⟩ := hledger
  refine Account.invoicesOk_iff.mpr ⟨hagrees.of_credit (Account.creditOk_iff.mpr ⟨fun v hv => ?_, fun e he => ?_⟩)
    hlines hinv hopen hqueue hcursor, hflag.of_same hlow hlines⟩
  · have := hhas v (hinv ▸ hv)
    rw [← Table.has_of_reads hbuyers] at this
    have hkeys : Table.reads (b.resetSequences day).buyers Buyer.limit = Table.reads b.buyers Buyer.limit := by
      simp [Account.resetSequences, Table.reads]
    rw [Table.has_of_reads hkeys]
    exact this
  · obtain ⟨x, hx, rfl⟩ := List.mem_map.mp he
    obtain ⟨y, hy, hxy⟩ := Table.mem_of_reads hbuyers hx
    obtain ⟨hexp, hcount, hopened, -⟩ := hcred _ hy
    simp only [Buyer.entry, Prod.mk.injEq] at hxy
    obtain ⟨h1, h2, h3, -⟩ := hxy
    have howed : (b.resetSequences day).owed x.1 = a.owed x.1 := by
      rw [Account.owed, Account.owed]
      exact congrArg (fun t => (Table.vals t).filter _) hlines
    refine ⟨?_, ?_, ?_, ?_⟩
    · rw [howed]; exact h1.trans hexp
    · rw [howed]; exact h2.trans hcount
    · exact h3.trans (hopened.trans (congrArg (List.find? _) hopen.symm))
    · rw [show (b.resetSequences day).hall.day = day from hday]
      exact Account.skipSequence_none (a := b) le_rfl (hinv ▸ hfit)

theorem openDay_invoicesOk {day : Nat} (ht : p.account.TablesOk) (h : p.account.InvoicesOk) :
    (openDay l m day p).account.InvoicesOk := by
  have hreset := h.openDay ht.invoicesFit (b := { p.account with hall := { p.account.hall with day := day, mark := some p.now } })
    (day := day) rfl
  refine hreset.of_books ?_
  simp only [openDay, Part.reply_account, sendDayState_account, noticeHall_account]
  exact Part.updHall_books fun _ => rfl

theorem takeOpenDay_invoicesOk (ht : p.account.TablesOk) (h : p.account.InvoicesOk) :
    (takeOpenDay l m p).account.InvoicesOk := by
  simp only [takeOpenDay]
  repeat' split
  · exact h
  · exact h
  · exact h
  · exact openDay_invoicesOk ht h

/-- Invoices of the open list closed one after another. -/
theorem foldl_close_invoicesOk {cause : CloseCause} (ns : List InvoiceNumber) (hn : ns.Nodup) (h : p.account.InvoicesOk)
    (hopen : ∀ n ∈ ns, n ∈ p.account.openList) : (ns.foldl (closeInvoice cause) p).account.InvoicesOk := by
  induction ns generalizing p with
  | nil => exact h
  | cons n rest ih =>
    obtain ⟨hnot, hrest⟩ := List.nodup_cons.mp hn
    rw [List.forall_mem_cons] at hopen
    refine ih hrest (closeInvoice_invoicesOk h hopen.1) fun k hk => ?_
    rw [(closeInvoice_leaves cause p n).2.2, List.mem_filter]
    exact ⟨hopen.2 k hk, decide_eq_true fun e => hnot (e ▸ hk)⟩

theorem becomeClosed_invoicesOk (h : p.account.InvoicesOk) : (becomeClosed p).account.InvoicesOk := by
  simp only [becomeClosed, sendDayState_account, noticeHall_account]
  generalize hq : unbindAll _ = q
  have hq : q.account.InvoicesOk := by
    rw [← hq]
    exact h.of_books ((unbindAll_books _).trans (Part.updHall_books fun _ => rfl))
  have honce := (Account.invoicesOk_iff.mp hq).1.listed.once
  exact startCheck_invoicesOk (foldl_close_invoicesOk _ (List.Nodup.of_map _ honce) hq fun _ hn => hn)

theorem takeActivity_invoicesOk {c : ClockId} {active : Bool} {answers : Option HallState} (h : p.account.InvoicesOk) :
    (takeActivity c active answers p).account.InvoicesOk := by
  have hreport : (p.updHall (fun x => x.report c active answers)).account.InvoicesOk :=
    h.of_books (Part.updHall_books fun _ => rfl)
  simp only [takeActivity]
  split
  · exact becomeClosed_invoicesOk hreport
  · exact hreport

/-! ### Settlement (R126, R131, R133) -/

theorem takeCloseInvoice_invoicesOk (h : p.account.InvoicesOk) : (takeCloseInvoice l m p).account.InvoicesOk := by
  unfold takeCloseInvoice
  split
  · exact h
  · next b hb =>
    split
    · exact h
    · next n hn =>
      have hopened := ((Account.invoicesOk_iff.mp h).1.credit.find hb).opened
      exact closeInvoice_invoicesOk h (List.mem_of_find?_eq_some (hopened.symm.trans hn))

theorem takeSettled_invoicesOk (ht : p.account.TablesOk) (h : p.account.InvoicesOk) : (takeSettled l m p).account.InvoicesOk := by
  unfold takeSettled
  split
  · exact h
  · next v hv =>
    split
    · next hs => exact h.settle ht.linesRise (Account.mem_of_invoice hv).1 hs
    · exact h

theorem settlementLost_invoicesOk (h : p.account.InvoicesOk) : (settlementLost p).account.InvoicesOk := by
  obtain ⟨hagrees, hflag⟩ := Account.invoicesOk_iff.mp h
  exact Account.invoicesOk_iff.mpr ⟨hagrees.returned, hflag⟩

end

end Sys2Proof.Machine
end

section
/-! O7: every step keeps the lines, the invoices and the credit in agreement (R97, R98, R116 to R123, R125, R128, R129). -/

namespace Sys2Proof.Machine

/-- The tables of the part are in form, and its invoices and credit in agreement. -/
def Part.BooksOk (p : Part) : Prop := p.FormOk False ∧ p.account.InvoicesOk

section
variable {p q : Part} {l : LinkId} {c : ClockId} {k : Kind}

theorem Part.BooksOk.tables (h : p.BooksOk) : p.account.TablesOk := h.1.2.1

theorem Account.InvoicesOk.of_tables (h : p.account.InvoicesOk) (ht : q.tables = p.tables) : q.account.InvoicesOk := by
  simp only [Part.tables, Prod.mk.injEq] at ht
  obtain ⟨-, -, -, ha⟩ := ht
  exact ha ▸ h

theorem Account.InvoicesOk.of_account (h : p.account.InvoicesOk) (ha : q.account = p.account) : q.account.InvoicesOk := ha ▸ h

theorem Account.reset_invoicesOk : Account.reset.InvoicesOk := by
  have hcredit : Account.reset.CreditOk := by simp [Account.CreditOk, Account.reset]
  refine Account.invoicesOk_iff.mpr ⟨⟨⟨?_, ?_, ?_, ?_, ?_⟩, hcredit, ⟨rfl, ?_, ?_, ?_, ?_, ?_⟩, [], [], [], ?_⟩, rfl⟩ <;>
    simp [Account.reset]
  exact ⟨rfl, by simp, by simp, by simp, .nil⟩

/-! ### Links (R129, R130, R133, R160) -/

theorem goFrom_invoicesOk (h : p.account.InvoicesOk) : (goFrom l p).account.InvoicesOk := by
  simp only [goFrom]
  split
  · exact startCheck_invoicesOk h
  · exact h

theorem receive_invoicesOk {bytes : List Byte} (h : p.account.InvoicesOk) : (receive l bytes p).account.InvoicesOk := by
  unfold receive
  repeat' split
  · exact h
  · exact h
  · exact h
  · exact goFrom_invoicesOk h
  · exact h
  · exact h

theorem transmit_invoicesOk (h : p.account.InvoicesOk) : (transmit l p).account.InvoicesOk := by
  unfold transmit
  split
  · exact h
  · exact h
  · unfold bulkSent
    split
    · exact pump_invoicesOk _ h
    · exact h

theorem roleAdmitted_invoicesOk {r : Claim} (h : p.account.InvoicesOk) : (roleAdmitted l r p).account.InvoicesOk := by
  cases r with
  | logistics => exact h.of_account (foldl_reads (φ := Part.account) (fun p c => (reissueDepart_outside p c).2) clockIds p)
  | console c => exact h.of_account (consoleAdmitted_outside c p).2
  | settlement => exact startCheck_invoicesOk h
  | display set => exact h.of_account (displayAdmitted_outside l set p).2
  | supervision set => exact h
  | deskGroup map clock aging age => exact h.of_books rfl

theorem takeAnnounce_invoicesOk {m : Message} (h : p.account.InvoicesOk) : (takeAnnounce l m p).account.InvoicesOk := by
  unfold takeAnnounce judgeClaim
  repeat' split
  · exact h
  · exact roleAdmitted_invoicesOk (h.of_account (enterRole_outside l m _ _ p).2)
  · exact h
  · exact h

theorem lossStep_invoicesOk (h : p.account.InvoicesOk) : (lossStep l p).account.InvoicesOk := by
  unfold lossStep
  split
  · exact h
  · simp only [loseLink]
    split
    · exact h
    · next r _ =>
      generalize hq : Part.updLink _ l Link.lost = q
      have h : q.account.InvoicesOk := hq ▸ h
      cases r with
      | logistics => exact h.of_account (logisticsLost_steady q).2
      | console c => exact h.of_account (Part.sale_eq_iff.mp (consoleLost_sale c q)).1
      | deskGroup => exact h.of_books (deskGroupLost_books l q)
      | settlement => exact settlementLost_invoicesOk h
      | display => exact h.of_account (displayLost_outside l q).2
      | supervision => exact h.of_account (supervisionLost_outside q).2

/-! ### Messages and hand-overs -/

theorem Part.BooksOk.message {f : Message → Part → Part} (h : p.BooksOk)
    (hf : ∀ m q, q.BooksOk → (f m q).account.InvoicesOk) : (takeMessage l k f p).account.InvoicesOk :=
  takeMessage_leads (pre := Part.BooksOk) (post := fun q => q.account.InvoicesOk) (fun _ hq => hq.2) (fun _ _ hq => hq) hf h

theorem Part.BooksOk.formed {f : Message → Part → Part} (h : p.BooksOk)
    (hf : ∀ m q, q.BooksOk → (f m q).account.InvoicesOk) : (takeMessage l k (ifWellFormed l k f) p).account.InvoicesOk :=
  takeFormed_leads (pre := Part.BooksOk) (post := fun q => q.account.InvoicesOk) (fun _ hq => hq.2) (fun _ _ hq => hq) hf h

theorem Part.BooksOk.console {f : Message → ClockId → Part → Part} (h : p.BooksOk)
    (hf : ∀ m c q, (f m c q).tables = q.tables) :
    (takeMessage l k (ifWellFormed l k (fun m => onConsole l (f m))) p).account.InvoicesOk :=
  h.formed fun m _ hq => onConsole_leads (pre := Part.BooksOk) (post := fun q => q.account.InvoicesOk) (fun _ hq => hq.2)
    (fun c _ hq => hq.2.of_tables (hf m c _)) hq

theorem Part.BooksOk.fromAccount {f : ToClock → Option (Part → Part)} (h : p.BooksOk)
    (hf : ∀ m g, f m = some g → ∀ q, (g q).tables = q.tables) : (takeFromAccount c f p).account.InvoicesOk :=
  takeFromAccount_leads (pre := Part.BooksOk) (post := fun q => q.account.InvoicesOk) (fun _ hq => hq.2) (fun _ _ hq => hq)
    (fun m g hg q hq => hq.2.of_tables (hf m g hg q)) h

theorem Part.BooksOk.fromSupply {f : ToClockFromSupply → Option (Part → Part)} (h : p.BooksOk)
    (hf : ∀ m g, f m = some g → ∀ q, (g q).tables = q.tables) : (takeFromSupply c f p).account.InvoicesOk :=
  takeFromSupply_leads (post := fun q => q.account.InvoicesOk) h.2
    fun m _ g _ hg => Account.InvoicesOk.of_tables (p := p.updChannels c _) h.2 (hf m g hg _)

theorem Part.BooksOk.fromClock {f : ToAccount → Option (Part → Part)} (h : p.BooksOk)
    (hf : ∀ m g, f m = some g → ∀ q, q.BooksOk → (g q).account.InvoicesOk) : (takeFromClock c f p).account.InvoicesOk :=
  takeFromClock_leads (pre := Part.BooksOk) (post := fun q => q.account.InvoicesOk) (fun _ hq => hq.2) (fun _ _ hq => hq) hf h

theorem Part.BooksOk.clockEvent {f : ClockEvent → Option (Part → Part)} (h : p.BooksOk)
    (hf : ∀ m g, f m = some g → ∀ q, (g q).account = q.account) : (takeClockEvent c f p).account.InvoicesOk :=
  takeClockEvent_leads (pre := Part.BooksOk) (post := fun q => q.account.InvoicesOk) (fun _ hq => hq.2) (fun _ _ hq => hq)
    (fun m g hg q hq => hq.2.of_account (hf m g hg q)) h

theorem Part.BooksOk.ofReport {src : ReportSource} {f : Report → Option (Part → Part)} (h : p.BooksOk)
    (hf : ∀ m g, f m = some g → ∀ q, (g q).account = q.account) : (takeReport src f p).account.InvoicesOk :=
  takeReport_leads (pre := Part.BooksOk) (post := fun q => q.account.InvoicesOk) (fun _ hq => hq.2) (fun _ _ hq => hq)
    (fun _ _ _ hq => hq) (fun m g hg q hq => hq.2.of_account (hf m g hg q)) h

/-! ### Every command -/

/-- Most commands leave the account, or its books, alone; the others are those of invoices, lines, buyers and the day. -/
theorem effect_invoicesOk (i : Instr) (h : p.BooksOk) : (effect i p).account.InvoicesOk := by
  have hp := h.2
  cases i with
  | reset | resetPinHeldLow => exact Account.reset_invoicesOk
  | lineActivity l => exact hp.of_account (lineActive_outside l p).2
  | frameReceived l bytes => exact receive_invoicesOk hp
  | keepMarker l => simp only [effect]; split; exacts [hp.of_account (keepFrom_outside l p).2, hp]
  | waitMarker l => simp only [effect]; split; exacts [hp.of_account (waitFrom_outside l p).2, hp]
  | goMarker l => simp only [effect]; split; exacts [goFrom_invoicesOk hp, hp]
  | lossTimerExpiry l => exact lossStep_invoicesOk hp
  | keepTimerExpiry l => exact hp.of_account (keepStep_outside l p).2
  | frameSent l => exact transmit_invoicesOk hp
  | unknownKind l => exact hp.of_account (unknownStep_outside l p).2
  | announce l => exact h.message fun m q hq => takeAnnounce_invoicesOk hq.2
  | trainHeader l => exact h.formed fun m q hq => hq.2.of_account (takeTrainHeader_steady l m q).2
  | trolleyEntry l => exact h.formed fun m q hq => hq.2.of_account (takeTrolleyEntry_steady l m q).2
  | trolleyArrived l => exact h.formed fun m q hq => hq.2.of_tables (takeTrolleyArrived_tables l m q)
  | lotWithdraw l => exact h.formed fun m q hq => hq.2.of_tables (takeLotWithdraw_tables l m q)
  | trainWithdraw l => exact h.formed fun m q hq => hq.2.of_account (takeTrainWithdraw_steady l m q).2
  | trolleyDeparted l => exact h.formed fun m q hq => hq.2.of_account (takeTrolleyDeparted_steady l m q).2
  | slotQuery l => exact h.formed fun m q hq => hq.2.of_account (takeSlotQuery_outside l m q).2
  | lotDoneReport c => exact hp.of_tables (lotDoneStep_tables c p)
  | headLotPresented c =>
    refine h.fromSupply fun m g hg q => ?_
    cases m <;> cases hg
    exact takeHeadLot_tables c _ q
  | noPresentedHead c =>
    refine h.fromSupply fun m g hg q => ?_
    cases m <;> cases hg
    rfl
  | lotWithdrawn c =>
    refine h.fromSupply fun m g hg q => ?_
    cases m <;> cases hg
    exact Part.tables_of_sale (takeLotWithdrawn_sale c _ _ q)
  | clockConfigure l => exact h.console fun m c q => Part.tables_of_sale (takeConfigure_sale l m c q)
  | start l => exact h.console fun m c q => takeStart_tables l m c q
  | holdClock l => exact h.console fun m c q => Part.tables_of_sale (takeHold_sale l m c q)
  | resume l => exact h.console fun m c q => Part.tables_of_sale (takeResume_sale l m c q)
  | withdrawLot l => exact h.console fun m c q => takeWithdraw_tables l m c q
  | strideEnd c => exact hp.of_tables (strideStep_tables c p)
  | windowExpiry c => exact hp.of_tables (windowStep_tables c p)
  | restartDelayEnd c => exact hp.of_tables (restartStep_tables c p)
  | bid l => exact h.message fun m q hq => hq.2.of_books (takeBid_books l m q)
  | admittedBid c =>
    refine h.fromAccount fun m g hg q => ?_
    cases m <;> cases hg
    exact takeAdmittedBid_tables c _ q
  | placement c =>
    refine h.fromAccount fun m g hg q => ?_
    cases m <;> cases hg
    exact Part.tables_of_sale (takePlacement_sale c _ q)
  | cancelOrder l => exact h.formed fun m q hq => hq.2.of_books (boundDesk_books (takeCancelOrder_books l m) q)
  | cancelRequest c =>
    refine h.fromAccount fun m g hg q => ?_
    cases m <;> cases hg
    exact Part.tables_of_sale (takeCancel_sale c _ _ _ q)
  | buyerNotice c =>
    refine h.fromAccount fun m g hg q => ?_
    cases m <;> cases hg
    exact Part.tables_of_sale (takeNotice_sale c _ q)
  | endRequest c =>
    refine h.fromAccount fun m g hg q => ?_
    cases m <;> cases hg
    exact Part.tables_of_sale (takeEndRequest_sale c _ _ q)
  | hallNoticeOpen c =>
    refine h.fromAccount fun m g hg q => ?_
    rcases m with _ | _ | _ | _ | _ | ⟨_ | _ | _⟩ | _ | _ <;> cases hg
    exact Part.tables_of_sale (noticeOpen_sale c q)
  | hallNoticeClosing c =>
    refine h.fromAccount fun m g hg q => ?_
    rcases m with _ | _ | _ | _ | _ | ⟨_ | _ | _⟩ | _ | _ <;> cases hg
    exact Part.tables_of_sale (noticeClosing_sale c q)
  | hallNoticeClosed c =>
    refine h.fromAccount fun m g hg q => ?_
    rcases m with _ | _ | _ | _ | _ | ⟨_ | _ | _⟩ | _ | _ <;> cases hg
    exact Part.tables_of_sale (noticeClosed_sale c q)
  | reservation c =>
    refine h.fromClock fun m g hg q hq => ?_
    cases m <;> cases hg
    exact takeReservation_invoicesOk hq.tables hq.2
  | grant c =>
    refine h.fromAccount fun m g hg q => ?_
    cases m <;> cases hg
    exact takeGrant_tables c _ q
  | refuse c =>
    refine h.fromAccount fun m g hg q => ?_
    cases m <;> cases hg
    exact takeRefuse_tables c _ q
  | deliverOutcome c =>
    refine h.fromClock fun m g hg q hq => ?_
    cases m <;> cases hg
    · exact hq.2.of_account (deliver_outside _ _ _ q).2
    · exact hq.2.of_account (deliverReply_outside _ _ _ q).2
  | orderEnded c =>
    refine h.fromClock fun m g hg q hq => ?_
    cases m <;> cases hg
    exact hq.2
  | activityReport c =>
    refine h.fromClock fun m g hg q hq => ?_
    cases m <;> cases hg
    exact takeActivity_invoicesOk hq.2
  | login l => exact h.message fun m q hq => hq.2.of_books (takeLogin_books l m q)
  | logout l => exact h.formed fun m q hq => hq.2.of_books (boundDesk_books (takeLogout_books l m) q)
  | present l => exact h.formed fun m q hq => hq.2.of_books (boundDesk_books (takePresent_books l m) q)
  | ageExpiry desk => exact hp.of_books (ageStep_books desk p)
  | snapshotRequest l => exact h.formed fun m q hq => hq.2.of_account (takeSnapshot_outside l m q).2
  | buyerSet l => exact h.formed fun m q hq => takeBuyerSet_invoicesOk hq.2
  | buyerRemove l => exact h.formed fun m q hq => takeBuyerRemove_invoicesOk hq.tables hq.2
  | creditLimit l => exact h.formed fun m q hq => hq.2.of_books (takeCreditLimit_books l m q)
  | block l => exact h.formed fun m q hq => hq.2.of_books (setBlocked_books l true m q)
  | unblock l => exact h.formed fun m q hq => hq.2.of_books (setBlocked_books l false m q)
  | tariffLoad l => exact h.formed fun m q hq => hq.2.of_books (takeTariffLoad_books l m q)
  | closeInvoice l => exact h.formed fun m q hq => takeCloseInvoice_invoicesOk hq.2
  | settled l => exact h.formed fun m q hq => takeSettled_invoicesOk hq.tables hq.2
  | openDay l => exact h.formed fun m q hq => takeOpenDay_invoicesOk hq.tables hq.2
  | closeDay l => exact h.formed fun m q hq => hq.2.of_books (takeCloseDay_books l m q)
  | statisticsRequest l => exact h.formed fun m q hq => hq.2.of_account (takeStatistics_outside l m q).2
  | stateEvent c =>
    refine h.clockEvent fun m g hg q => ?_
    cases m <;> cases hg
    exact (takeStateEvent_outside c _ q).2
  | strideEvent c =>
    refine h.clockEvent fun m g hg q => ?_
    cases m <;> cases hg
    exact (takeStrideEvent_outside c _ q).2
  | awardEvent c =>
    refine h.clockEvent fun m g hg q => ?_
    cases m <;> cases hg
    exact (takeAwardEvent_outside c _ _ q).2
  | divisorEvent c =>
    refine h.clockEvent fun m g hg q => ?_
    cases m <;> cases hg
    exact (takeDivisorEvent_outside c _ _ q).2
  | supplyUnitEvent c => exact hp.of_account (supplyEventStep_outside c p).2
  | frameTimerExpiry c => exact hp.of_account (frameTimerStep_outside c p).2
  | bidCopy src =>
    refine h.ofReport fun m g hg q => ?_
    cases m <;> cases hg
    exact (copyBid_outside _ q).2
  | outcomeCopy src =>
    refine h.ofReport fun m g hg q => ?_
    cases m <;> cases hg
    exact (copyOutcome_outside _ q).2

end

theorem booksOk_kept : Kept Part.BooksOk :=
  kept_of_effect (fun _ _ h => h) fun i _ h => ⟨effect_formOk i h.1, effect_invoicesOk i h⟩

/-- Settles O7: sending moves invoices through the phases of the queue, a line is filed with an invoice in hand, and every other
command but those of buyers, settling and the day leaves the books alone. -/
theorem invoicesKept : Obligations.InvoicesKept := by
  intro s t hs ht
  obtain ⟨hform, hok⟩ := booksOk_kept s t ⟨Part.tablesOk_iff_formOk.mp hs.1, hs.2⟩ ht
  exact ⟨Part.tablesOk_iff_formOk.mpr hform, hok⟩

end Sys2Proof.Machine
end

section
/-! The sending of invoices as one equation: the start check sends what the account has due, as far as there is room
(R129, R130). -/

namespace Sys2Proof.Machine

section
variable {a : Account} {k k' : Cursor} {v : Invoice} {room : Nat} {m : OutMsg} {ms : List OutMsg} {rest : List Invoice}

/-! ### The messages behind the cursor -/

/-- The messages of the SENDING invoice that are still to be placed. -/
def Account.toSend (a : Account) (k : Cursor) (v : Invoice) : List OutMsg :=
  (a.messagesOf v k.markBefore).drop (if k.headerDue then 0 else k.placed + 1)

theorem Account.sendsOn_fits (h : (a.toSend k v).length ≤ room) : a.sendsOn room k v =
    (((a.finished v.number).sends (room - (a.toSend k v).length) (a.finished v.number).due).1,
      a.toSend k v ++ ((a.finished v.number).sends (room - (a.toSend k v).length) (a.finished v.number).due).2) :=
  if_pos h

theorem Account.sendsOn_fills (h : ¬ (a.toSend k v).length ≤ room) : a.sendsOn room k v =
    ({ a with cursor := some { k with
      headerDue := k.headerDue && decide (room = 0), placed := if k.headerDue then room - 1 else k.placed + room } },
     (a.toSend k v).take room) :=
  if_neg h

theorem drop_filterMap_of_some {α β : Type} {f : α → Option β} {xs : List α} (h : ∀ x ∈ xs, ∃ y, f x = some y) (n : Nat) :
    (xs.filterMap f).drop n = (xs.drop n).filterMap f := by
  induction xs generalizing n with
  | nil => simp
  | cons x rest ih =>
    rw [List.forall_mem_cons] at h
    obtain ⟨y, hy⟩ := h.1
    cases n with
    | zero => rfl
    | succ n => rw [List.filterMap_cons_some hy, List.drop_succ_cons, List.drop_succ_cons, ih h.2]

theorem Account.toSend_header (hd : k.headerDue = true) : a.toSend k v =
    ⟨none, .invoiceHeader v.number v.cause v.lines.length v.total k.markBefore⟩ ::
      a.toSend { k with headerDue := false, placed := 0 } v := by
  simp [Account.toSend, Account.messagesOf, hd]

/-- Behind the header the messages to be placed are those of the lines not placed yet. -/
theorem Account.Bills.toSend_lines (h : a.Bills v) (hd : k.headerDue = false) : a.toSend k v =
    (v.lines.drop k.placed).filterMap (fun i => (a.lines.find i).map (fun x => ⟨none, .invoiceLine i x⟩)) := by
  rw [Account.toSend, hd, if_neg (by simp), Account.messagesOf, List.drop_succ_cons]
  refine drop_filterMap_of_some (fun i hi => ?_) _
  obtain ⟨x, hx, -⟩ := h.filed i hi
  exact ⟨_, by rw [hx]; rfl⟩

theorem Account.Bills.toSend_line {x : Line} (h : a.Bills v) (hd : k.headerDue = false) (hat : k.placed < v.lines.length)
    (hx : Table.find a.lines v.lines[k.placed] = some x) :
    a.toSend k v = ⟨none, .invoiceLine v.lines[k.placed] x⟩ :: a.toSend { k with placed := k.placed + 1 } v := by
  rw [h.toSend_lines hd, h.toSend_lines (k := { k with placed := k.placed + 1 }) hd, List.drop_eq_getElem_cons hat,
    List.filterMap_cons_some (by rw [hx]; rfl)]

theorem Account.Bills.toSend_eq_nil (h : a.Bills v) (hd : k.headerDue = false) : a.toSend k v = [] ↔ v.lines.length ≤ k.placed := by
  have hall : ∀ i ∈ v.lines.drop k.placed,
      (a.lines.find i).map (fun x => (⟨none, .invoiceLine i x⟩ : OutMsg)) ≠ none := fun i hi => by
    obtain ⟨x, hx, -⟩ := h.filed i (List.mem_of_mem_drop hi)
    simp [hx]
  rw [h.toSend_lines hd, List.filterMap_eq_nil_iff]
  constructor
  · intro hnone
    rw [← List.drop_eq_nil_iff, List.eq_nil_iff_forall_not_mem]
    exact fun i hi => hall i hi (hnone i hi)
  · intro hle
    simp [List.drop_eq_nil_iff.mpr hle]

/-- Where the cursor stands there is a message to be placed. -/
theorem Account.Bills.toSend_ne_nil (h : a.Bills v) (hat : k.StandsIn v) : a.toSend k v ≠ [] := by
  cases hd : k.headerDue with
  | true => simp [Account.toSend_header hd]
  | false =>
    have hat := hat.2
    rw [hd, if_neg (by simp)] at hat
    exact fun hnil => absurd ((h.toSend_eq_nil hd).mp hnil) (not_le.mpr hat)

/-! ### One message -/

/-- With no room nothing is sent. -/
theorem Account.Bills.sendsOn_zero (h : a.Bills v) (hk : a.cursor = some k) (hat : k.StandsIn v) : a.sendsOn 0 k v = (a, []) := by
  have hms := List.length_pos_iff.mpr (h.toSend_ne_nil hat)
  rw [Account.sendsOn_fills (by omega), List.take_zero]
  have hcursor : ({ k with
      headerDue := k.headerDue && decide (0 = 0),
      placed := if k.headerDue then 0 - 1 else k.placed + 0 } : Cursor) = k := by
    have hat := hat.2
    cases hd : k.headerDue with
    | true =>
      rw [hd, if_pos rfl] at hat
      cases k
      simp_all
    | false =>
      cases k
      simp_all
  rw [hcursor, ← hk]

/-- A message is placed that is not the last of its invoice. -/
theorem Account.sendsOn_move (hms : a.toSend k v = m :: a.toSend k' v) (hne : a.toSend k' v ≠ [])
    (hd : k'.headerDue = false) (hinv : k'.invoice = k.invoice) (hmark : k'.markBefore = k.markBefore)
    (hplaced : k'.placed = if k.headerDue then 0 else k.placed + 1) : a.sendsOn (room + 1) k v =
      ((({ a with cursor := some k' } : Account).sendsOn room k' v).1,
        m :: (({ a with cursor := some k' } : Account).sendsOn room k' v).2) := by
  have hsame : ({ a with cursor := some k' } : Account).toSend k' v = a.toSend k' v := rfl
  by_cases hfits : (a.toSend k' v).length ≤ room
  · rw [Account.sendsOn_fits (by rw [hms]; simpa using hfits), Account.sendsOn_fits (hsame ▸ hfits), hsame, hms]
    simp only [List.length_cons, Nat.add_sub_add_right, List.cons_append]
    rfl
  · rw [Account.sendsOn_fills (by rw [hms]; simpa using hfits), Account.sendsOn_fills (hsame ▸ hfits), hsame, hms]
    have hcursor : ({ k with
        headerDue := k.headerDue && decide (room + 1 = 0),
        placed := if k.headerDue then room + 1 - 1 else k.placed + (room + 1) } : Cursor) = { k' with
        headerDue := k'.headerDue && decide (room = 0),
        placed := if k'.headerDue then room - 1 else k'.placed + room } := by
      cases k
      cases k'
      simp only at hd hinv hmark hplaced
      subst hd hinv hmark
      simp only [Nat.add_one_ne_zero, decide_false, Bool.and_false, Bool.false_and, Bool.false_eq_true, if_false, hplaced,
        Cursor.mk.injEq, true_and, and_true]
      split
      · omega
      · omega
    rw [hcursor, List.take_succ_cons]

/-- The last message of an invoice is placed. -/
theorem Account.sendsOn_last (hms : a.toSend k v = [m]) : a.sendsOn (room + 1) k v =
    (((a.finished v.number).sends room (a.finished v.number).due).1,
      m :: ((a.finished v.number).sends room (a.finished v.number).due).2) := by
  rw [Account.sendsOn_fits (by simp [hms]), hms]
  rfl

/-- The first invoice that is due begins. -/
theorem Account.sends_begin {hand : Option InvoiceNumber} (h : a.Agrees hand) (hk : a.cursor = none) (hd : a.due = v :: rest) :
    a.sends room (v :: rest) = (a.beginSending v).sendsOn room
      { invoice := v.number, headerDue := true, placed := 0, markBefore := v.sentBefore }
      { v with state := .sending, sentBefore := true } := by
  obtain ⟨sent, hp⟩ := h.due_phases hk
  rw [hd] at hp
  have hbegun := h.begins hk (by rw [Account.firstClosed_eq, hd]; rfl)
  have hp := Account.Phases.begins h.listed hp
  have hdue := (Account.Phases.finished hbegun.listed hp).due_eq
  have hdone : (a.beginSending v).finished v.number = { a with invoices := a.invoices.map (fun x =>
      if x.number = v.number then { x with state := .awaiting, sentBefore := true } else x) } := by
    rw [Account.finished, Account.beginSending, Account.updInvoice, Account.updInvoice, ← hk, List.map_map]
    refine congrArg (fun vs => ({ a with invoices := vs } : Account)) (List.map_congr_left fun x _ => ?_)
    by_cases hx : x.number = v.number <;> simp [hx]
  rw [Account.sends, Account.sendsOn]
  simp only [if_true, List.drop_zero, Bool.true_and]
  refine ite_congr rfl (fun _ => ?_) fun _ => rfl
  change _ = ((((a.beginSending v).finished v.number).sends _ ((a.beginSending v).finished v.number).due).1,
    _ ++ (((a.beginSending v).finished v.number).sends _ ((a.beginSending v).finished v.number).due).2)
  rw [hdue, hdone]
  rfl

end

end Sys2Proof.Machine
end

section
/-! Sending runs as far as the room goes (R129, R130): the turns of the start check, counted out, are the one
equation of the spec. -/

namespace Sys2Proof.Machine

section
variable {p q : Part} {l : LinkId} {k k' : Cursor} {v : Invoice} {m : OutMsg}

/-- The part once messages have been placed on the settlement link, with the account that this leaves. -/
def Part.sending (p : Part) (l : LinkId) (r : Account × List OutMsg) : Part :=
  { p with links := p.links.upd l (fun k => { k with bulk := k.bulk ++ r.2 }), account := r.1 }

theorem Part.startsSending_eq (hl : p.linkOf .settlement = some l) (hw : (p.links.get l).peerWait = false)
    (hk : p.account.cursor = none) :
    p.startsSending = p.sending l (p.account.sends (32 - (p.links.get l).bulk.length) p.account.due) := by
  simp [Part.startsSending, hl, hw, hk, Part.sending]

@[simp] theorem Part.sending_nil (p : Part) (l : LinkId) : p.sending l (p.account, []) = p := by
  simp [Part.sending, PerLink.upd_eq_self]

theorem Part.sending_placing (p : Part) (l : LinkId) (m : OutMsg) (k : Cursor) (r : Account × List OutMsg) :
    (p.placing l m k).sending l r = p.sending l (r.1, m :: r.2) := by
  simp [Part.sending, Part.placing]

/-- The place of the next message may be left to the messages that follow it. -/
theorem Part.sending_after (p : Part) (l : LinkId) (m : OutMsg) (a : Account) (r : Account × List OutMsg) :
    ({ p with links := p.links.upd l (fun x => { x with bulk := x.bulk ++ [m] }), account := a } : Part).sending l r =
      p.sending l (r.1, m :: r.2) := by
  simp [Part.sending]

/-- R129: what stands ready for the start check: the link that serves SETTLEMENT, no WAIT of its peer in force, the room in
its queue. -/
structure Part.Sends (p : Part) (l : LinkId) (room : Nat) : Prop where
  link : p.linkOf .settlement = some l
  goes : (p.links.get l).peerWait = false
  room : 32 - (p.links.get l).bulk.length = room
  agrees : p.account.Agrees none

theorem Part.Sends.up {room : Nat} (h : p.Sends l room) : (p.links.get l).state = .up := (Part.linkOf_up h.link).1

/-- After one message there is one place less. -/
theorem Part.Sends.after {room : Nat} {a : Account} (h : p.Sends l (room + 1)) (ha : a.Agrees none) :
    ({ p with links := p.links.upd l (fun x => { x with bulk := x.bulk ++ [m] }), account := a } : Part).Sends l room where
  link :=
    (Part.linkOf_upd (p := p) (l := l) (f := fun x => { x with bulk := x.bulk ++ [m] }) rfl (fun _ => rfl) (fun _ => rfl) _).trans
      h.link
  goes := by simp [h.goes]
  room := by
    have := h.room
    simp only [PerLink.get_upd_self, List.length_append, List.length_singleton]
    omega
  agrees := ha

theorem Part.Sends.placing {room : Nat} (h : p.Sends l (room + 1)) (ha : ({ p.account with cursor := some k } : Account).Agrees none) :
    (p.placing l m k).Sends l room :=
  h.after ha

/-- The next invoice begins, if one is due. -/
theorem Part.Sends.tryBegin_eq {room : Nat} (h : p.Sends l room) (hk : p.account.cursor = none) :
    p.tryBegin = p.account.due.head?.map (fun v => { p with account := p.account.beginSending v }) := by
  have hready : p.settlementReady = some l := by simp [Part.settlementReady, h.link, h.goes]
  rw [Part.tryBegin, hk, hready, Account.firstClosed_eq]
  cases p.account.due.head? <;> rfl

/-- The turns of the pump do what the spec's one step does. -/
def PumpSends (turns : Nat) : Prop :=
  ∀ ⦃p : Part⦄ ⦃l : LinkId⦄ ⦃room : Nat⦄ ⦃k : Cursor⦄ ⦃v : Invoice⦄,
    p.Sends l room → room ≤ turns → p.account.cursor = some k →
    p.account.invoice k.invoice = some v → pump turns p = p.sending l (p.account.sendsOn room k v)

theorem pump_idle (turns : Nat) (hk : p.account.cursor = none) : pump turns p = p := by
  cases turns <;> simp [pump, hk]

theorem Account.invoice_beginSending {a : Account} (hv : a.invoice v.number = some v) :
    (a.beginSending v).invoice v.number = some { v with state := .sending, sentBefore := true } := by
  have hmap := Account.invoice_of_map (b := a.beginSending v) (a := a)
    (g := fun x => if x.number = v.number then { x with state := .sending, sentBefore := true } else x) rfl
    (fun x => by split <;> rfl) v.number
  rw [hmap, hv, Option.map_some, if_pos rfl]

/-- An invoice that is due stands in the pool under its number. -/
theorem Account.invoice_of_due {a : Account} (hv : v ∈ a.due) : a.invoice v.number = some v := by
  obtain ⟨n, -, hn⟩ := List.mem_filterMap.mp (List.mem_filter.mp hv).1
  rwa [(Account.mem_of_invoice hn).2]

/-- With the cursor idle the invoices that are due are sent, as far as the room goes. -/
theorem PumpSends.begins {turns room : Nat} (hp : PumpSends turns) (h : p.Sends l room) (hr : room ≤ turns)
    (hk : p.account.cursor = none) :
    pump turns (p.tryBegin.getD p) = p.sending l (p.account.sends room p.account.due) := by
  rw [h.tryBegin_eq hk]
  cases hd : p.account.due with
  | nil => simp [Account.sends, pump_idle turns hk]
  | cons v rest =>
    have hfirst : p.account.firstClosed = some v := by rw [Account.firstClosed_eq, hd]; rfl
    have hv : p.account.invoice v.number = some v := Account.invoice_of_due (by simp [hd])
    have hbegun : ({ p with account := p.account.beginSending v } : Part).Sends l room :=
      ⟨h.link, h.goes, h.room, h.agrees.begins hk hfirst⟩
    rw [List.head?_cons, Option.map_some, Option.getD_some, Account.sends_begin h.agrees hk hd]
    exact hp hbegun hr rfl (Account.invoice_beginSending hv)

theorem pump_sends (turns : Nat) : PumpSends turns := by
  induction turns with
  | zero =>
    intro p l room k v h hr hk hv
    obtain ⟨w, hw, hm, -, hat⟩ := h.agrees.stands hk
    obtain rfl : v = w := Option.some.inj (hv.symm.trans hw)
    obtain rfl : room = 0 := by omega
    rw [(h.agrees.pool.bills v hm).sendsOn_zero hk hat, Part.sending_nil]
    rfl
  | succ t ih =>
    intro p l room k v h hr hk hv
    obtain ⟨w, hw, hm, -, hat⟩ := h.agrees.stands hk
    obtain rfl : v = w := Option.some.inj (hv.symm.trans hw)
    have hbills := h.agrees.pool.bills v hm
    unfold pump
    simp only [hk, h.link, hv]
    cases room with
    | zero =>
      have hfull := h.room
      rw [if_neg (by simp only [Config.bulkCap]; omega), hbills.sendsOn_zero hk hat, Part.sending_nil]
    | succ room =>
      have hfree := h.room
      have hroom : (p.links.get l).bulk.length < Config.bulkCap := by simp only [Config.bulkCap]; omega
      rw [if_pos hroom]
      obtain ⟨hone, -⟩ := h.agrees.pool.sized v hm (by simp)
      cases hdue : k.headerDue with
      | true =>
        have hat0 := hat.2
        rw [hdue, if_pos rfl] at hat0
        have hstands : ({ k with headerDue := false } : Cursor).StandsIn v := ⟨hat.1, by simpa [hat0, Nat.succ_le_iff] using hone⟩
        have hms := Account.toSend_header (a := p.account) (v := v) hdue
        rw [placeNext_header h.up hroom hdue (List.length_pos_iff.mp hone),
          ih (h.placing (h.agrees.moveCursor hk hv hstands)) (by omega) rfl hv, Part.sending_placing]
        rw [Account.sendsOn_move (room := room) (k := k) (k' := { k with headerDue := false }) (by rw [hms, hat0])
          (hbills.toSend_ne_nil hstands) rfl rfl rfl (by simp [hdue, hat0])]
        rfl
      | false =>
        have hlt := hat.2
        rw [hdue, if_neg (by simp)] at hlt
        obtain ⟨x, hx, -⟩ := hbills.filed _ (List.getElem_mem hlt)
        have hms := hbills.toSend_line hdue hlt hx
        rw [placeNext_line h.up hroom hdue (List.getElem?_eq_getElem hlt) hx]
        split
        · next hlast =>
          have hnil := (hbills.toSend_eq_nil (k := { k with placed := k.placed + 1 }) hdue).mpr hlast
          rw [hnil] at hms
          have hdone : (p.account.finished v.number).Agrees none := hat.1 ▸ h.agrees.finished hk
          rw [finishSending_eq, Account.sendsOn_last hms, ← Part.sending_after (a := p.account.finished v.number)]
          exact ih.begins (h.after hdone) (by omega) rfl
        · next hlast =>
          have hstands : ({ k with placed := k.placed + 1 } : Cursor).StandsIn v := ⟨hat.1, by simpa [hdue] using hlast⟩
          rw [ih (h.placing (h.agrees.moveCursor hk hv hstands)) (by omega) rfl hv, Part.sending_placing,
            Account.sendsOn_move (room := room) hms (hbills.toSend_ne_nil hstands) hdue rfl rfl (by simp [hdue])]
          rfl


/-- R129: the start check. -/
theorem startCheck_eq (h : p.account.Agrees none) : startCheck p = p.startsSending := by
  have hstays (hnone : p.tryBegin = none) : startCheck p = p := by rw [startCheck, hnone]
  cases hl : p.linkOf .settlement with
  | none =>
    rw [hstays (by simp [Part.tryBegin, Part.settlementReady, hl]), Part.startsSending, hl]
  | some l =>
    by_cases hk : p.account.cursor = none ∧ (p.links.get l).peerWait = false
    · obtain ⟨hk, hw⟩ := hk
      have hs : p.Sends l (32 - (p.links.get l).bulk.length) := ⟨hl, hw, rfl, h⟩
      rw [Part.startsSending_eq hl hw hk, ← (pump_sends 32).begins hs (by omega) hk, startCheck]
      cases p.tryBegin with
      | none => exact (pump_idle 32 hk).symm
      | some q => rfl
    · have hnone : p.tryBegin = none := by
        rw [Part.tryBegin, Part.settlementReady, hl]
        cases hc : p.account.cursor with
        | some k => rfl
        | none =>
          have hw : (p.links.get l).peerWait ≠ false := fun hw => hk ⟨hc, hw⟩
          simp [Option.filter, hw]
      rw [hstays hnone, Part.startsSending, hl]
      exact (if_neg hk).symm

end

end Sys2Proof.Machine
end

section
/-! A reservation as the spec has it (R115 to R122): refused by the first condition met, or granted, with the account written out. -/

namespace Sys2Proof.Machine

/-! ### The lowest free place (R119) -/

/-- Below the lowest free place from `k` on every place is held. -/
theorem Table.find_of_lt_lowestFree {α : Type} (t : Table α) {i k : Nat} (hk : k ≤ i) (hi : i < Table.lowestFree t k) :
    (Table.find t i).isSome = true := by
  induction t generalizing k with
  | nil => exact absurd hi (by simpa [Table.lowestFree] using hk)
  | cons e rest ih =>
    obtain ⟨j, w⟩ := e
    rw [Table.lowestFree] at hi
    split at hi
    · next hj =>
      by_cases hij : j = i
      · simp [Table.find, hij]
      · rw [Table.find, if_neg hij]
        exact ih (by omega) hi
    · omega

/-- A record changed by two functions that agree on it. -/
theorem Table.modify_congr {α : Type} {t : Table α} (hr : Table.rising t = true) {k : Nat} {v : α} {f g : α → α}
    (hv : Table.find t k = some v) (h : f v = g v) : Table.modify t k f = Table.modify t k g := by
  refine List.map_congr_left fun e he => ?_
  split
  · next hk =>
    have hfind := (Table.find_iff_mem hr e.1 e.2).mpr he
    obtain rfl : e.2 = v := Option.some.inj (hfind.symm.trans (hk ▸ hv))
    rw [h]
  · rfl

/-! ### The account with the line filed (R116, R121, R122) -/

section
variable {a : Account} {u place seq : Nat} {b : Buyer} {x : Line} {n : InvoiceNumber} {v : Invoice} {p t : Part}

/-- The number of the invoice that a line of the buyer is filed on. -/
def Account.invoiceFor (a : Account) (u : Nat) (b : Buyer) : InvoiceNumber := b.openInvoice.getD ⟨a.hall.day, u, b.sequence⟩

/-- The invoices, with the one that opens for the buyer. -/
def Account.poolFor (a : Account) (u : Nat) (b : Buyer) : List Invoice :=
  if b.openInvoice = none then a.invoices ++ [⟨a.invoiceFor u b, .opened, [], 0, none, false⟩] else a.invoices

/-- The sequence of the buyer's next invoice. -/
def Account.sequenceFor (a : Account) (u : Nat) (b : Buyer) : Nat :=
  if b.openInvoice = none then a.nextSequence u b else b.sequence

/-- The account once the line is filed. -/
def Account.filing (a : Account) (u : Nat) (b : Buyer) (place : Nat) (x : Line) : Account :=
  { a with
    lines := a.lines.put place x,
    invoices := (a.poolFor u b).map (fun i => if i.number = a.invoiceFor u b then
      { i with lines := i.lines ++ [place], total := i.total + x.total } else i),
    openList := if b.openInvoice = none then a.openList ++ [a.invoiceFor u b] else a.openList,
    buyers := a.buyers.modify u (fun y => { y with
      exposure := y.exposure + x.total, lines := y.lines + 1, openInvoice := some (a.invoiceFor u b),
      sequence := a.sequenceFor u b }) }

theorem Account.withOpenInvoice_number (a : Account) (u : Nat) (b : Buyer) : (a.withOpenInvoice u b).2 = a.invoiceFor u b := by
  unfold Account.withOpenInvoice Account.invoiceFor
  cases b.openInvoice <;> rfl

theorem Account.withOpenInvoice_invoices (a : Account) (u : Nat) (b : Buyer) :
    (a.withOpenInvoice u b).1.invoices = a.poolFor u b := by
  unfold Account.withOpenInvoice Account.poolFor Account.invoiceFor
  cases b.openInvoice <;> rfl

theorem Account.fileLine_withOpenInvoice (hr : Table.rising a.buyers = true) (hb : Table.find a.buyers u = some b)
    (hx : x.invoice = a.invoiceFor u b) : (a.withOpenInvoice u b).1.fileLine place x u = a.filing u b place x := by
  rw [Account.fileLine_eq, Account.withOpenInvoice_invoices, hx, Account.filing]
  cases ho : b.openInvoice with
  | none =>
    simp only [Account.withOpenInvoice, ho, Account.openInvoiceFor_eq, Table.modify_modify]
    simp only [Account.invoiceFor, Account.sequenceFor, ho]
    rfl
  | some n =>
    simp only [Account.withOpenInvoice, ho, Account.invoiceFor, Account.sequenceFor, Option.getD_some, reduceCtorEq, if_false]
    congr 1
    exact Table.modify_congr hr hb (by rw [ho])

/-- R122: the sequence of the next invoice skips the numbers in the pool. -/
theorem Account.sequenceFor_firstFree (ho : b.openInvoice = none) (hfit : a.invoices.length < Config.maxInvoices) :
    FirstFree (fun q => (⟨a.hall.day, u, q⟩ : InvoiceNumber) ∈ (a.poolFor u b).map Invoice.number) (next16 b.sequence)
      (a.sequenceFor u b) := by
  rw [Account.sequenceFor, if_pos ho, Account.poolFor, if_pos ho, Account.invoiceFor, ho]
  exact Account.skipSequence_firstFree (next16_pos _) (by simpa using hfit)

/-! ### The store-low warning (R118) -/

/-- STORE_LOW, as the consoles are told. -/
theorem foldl_warnConsole_eq (cs : List ClockId) {p : Part} (h : ∀ r, p.linkOf r = t.linkOf r) {free : Nat}
    (hfree : p.account.freeLines = free) : cs.foldl warnConsole p =
      { p with links := cs.foldl (fun ls d => t.consoleTold ls d [.storeLow free]) p.links } := by
  induction cs generalizing p with
  | nil => rfl
  | cons c rest ih =>
    rw [List.foldl_cons, warnConsole, hfree, Part.toConsole_eq (h _)]
    exact ih (p := { p with links := t.consoleTold p.links c [.storeLow free] })
      (fun r => (Part.linkOf_consoleTold (t := t) (c := c) (bs := [.storeLow free]) rfl r).trans (h r)) hfree

theorem warnStoreLow_eq (h : ∀ r, p.linkOf r = t.linkOf r) {free : Nat} {warns : Bool} (hfree : p.account.freeLines = free)
    (hw : p.account.crossesStoreLow = warns) : warnStoreLow p = { p with
      account := if warns then { p.account with storeLow := true } else p.account,
      links := if warns then clockIds.foldl (fun ls d => t.consoleTold ls d [.storeLow free]) p.links else p.links } := by
  rw [warnStoreLow, hw]
  cases warns with
  | false => rfl
  | true => exact foldl_warnConsole_eq clockIds (p := p.updAccount fun a => { a with storeLow := true }) h hfree

/-! ### The close of a full invoice (R125, R129) -/

theorem Part.startsSending_channels (p : Part) (hs : PerClock Channels) :
    ({ p with channels := hs } : Part).startsSending = { p.startsSending with channels := hs } := by
  have hl : ({ p with channels := hs } : Part).linkOf .settlement = p.linkOf .settlement := rfl
  rw [Part.startsSending, hl, Part.startsSending]
  cases p.linkOf .settlement with
  | none => rfl
  | some l =>
    dsimp only
    split <;> rfl

theorem Part.linkOf_startsSending (p : Part) (r : Role) : p.startsSending.linkOf r = p.linkOf r := by
  unfold Part.startsSending
  split
  · rfl
  · next l _ =>
    dsimp only
    split
    · exact Part.linkOf_upd (p := p) (l := l) (f := fun k => { k with bulk := k.bulk ++ _ }) rfl (fun _ => rfl) (fun _ => rfl) r
    · rfl

theorem Part.startsSending_leaves (h : p.account.Agrees none) :
    p.startsSending.account.lines = p.account.lines ∧ p.startsSending.account.storeLow = p.account.storeLow := by
  obtain ⟨hlines, hlow, -⟩ := Account.unsent_eq (startCheck_eq h ▸ startCheck_unsent p)
  exact ⟨hlines, hlow⟩

/-- The part once the line is filed, and its invoice closed if that was the 48th. -/
def Part.withFiled (p : Part) (filed : Account) (n : InvoiceNumber) (count : Nat) : Part :=
  if 48 ≤ count then ({ p with account := filed.closes .linesFull n } : Part).startsSending else { p with account := filed }

theorem Part.withFiled_channels (p : Part) (hs : PerClock Channels) (filed : Account) (n : InvoiceNumber) (count : Nat) :
    ({ p with channels := hs } : Part).withFiled filed n count = { p.withFiled filed n count with channels := hs } := by
  unfold Part.withFiled
  split
  · exact Part.startsSending_channels { p with account := filed.closes .linesFull n } hs
  · rfl

/-- The part once STORE_LOW has been told to the consoles of `t`, if it is. -/
def Part.warned (p t : Part) (free : Nat) (warns : Bool) : Part := { p with
  account := if warns then { p.account with storeLow := true } else p.account,
  links := if warns then clockIds.foldl (fun ls d => t.consoleTold ls d [.storeLow free]) p.links else p.links }

/-! ### The grant (R116) -/

theorem Account.lineOf_withOpenInvoice (a : Account) (u : Nat) (b : Buyer) (c : ClockId) (r : Reservation) (n : InvoiceNumber)
    (k now : Nat) : (a.withOpenInvoice u b).1.lineOf c r n k now = a.lineOf c r n k now := by
  unfold Account.withOpenInvoice
  split <;> rfl

theorem grantReservation_eq {c : ClockId} {r : Reservation} (ht : p.account.TablesOk) (h : p.account.InvoicesOk)
    (hb : Table.find p.account.buyers r.buyer = some b)
    (hfit : b.openInvoice = none → p.account.invoices.length < Config.maxInvoices)
    (hv : v ∈ p.account.poolFor r.buyer b) (hvn : v.number = p.account.invoiceFor r.buyer b) :
    grantReservation c r b p =
      (((p.withFiled (p.account.filing r.buyer b p.account.freePlace
          (p.account.lineOf c r (p.account.invoiceFor r.buyer b) (v.lines.length + 1) p.now))
          (p.account.invoiceFor r.buyer b) (v.lines.length + 1)).warned p (4096 - (p.account.lines.length + 1))
          (decide (4096 - (p.account.lines.length + 1) < 64) && !p.account.storeLow)).toClock c (.grant p.account.freePlace)) := by
  obtain ⟨w, hopen, hbuyer, hw, hs, hroom⟩ := h.withOpenInvoice hb hfit
  have hplace := Account.freePlace_free ht
  rw [Account.withOpenInvoice_number] at hopen hbuyer hw
  obtain rfl : v = w := Option.some.inj
    (((Account.invoice_eq_some hopen.pool.numbers).mpr ⟨Account.withOpenInvoice_invoices _ _ _ ▸ hv, hvn⟩).symm.trans hw)
  have hlines : (p.account.withOpenInvoice r.buyer b).1.lines = p.account.lines := by
    unfold Account.withOpenInvoice
    split <;> rfl
  have hcount : (p.account.withOpenInvoice r.buyer b).1.lineCount (p.account.invoiceFor r.buyer b) = v.lines.length := by
    rw [Account.lineCount, hw]
  simp only [grantReservation, Account.withOpenInvoice_number, Account.lineOf_withOpenInvoice, hcount]
  generalize hx : Account.lineOf _ c r _ _ _ = x
  have hxn : x.invoice = p.account.invoiceFor r.buyer b := hx ▸ rfl
  have hxk : x.number = v.lines.length + 1 := hx ▸ rfl
  have hfiled := hopen.fileLine (place := p.account.freePlace) hxn hbuyer hw hs hroom hxk (hlines ▸ hplace)
  have hinvoice := Account.invoice_fileLine (p.account.withOpenInvoice r.buyer b).1 p.account.freePlace x r.buyer
    (p.account.invoiceFor r.buyer b)
  rw [hw, Option.map_some, if_pos (hvn.trans hxn.symm)] at hinvoice
  rw [Account.fileLine_withOpenInvoice ht.buyersRise hb hxn] at hfiled hinvoice ⊢
  have hafter : (p.account.filing r.buyer b p.account.freePlace x).lineCount (p.account.invoiceFor r.buyer b) =
      v.lines.length + 1 := by
    rw [Account.lineCount, hinvoice]
    simp [Invoice.withLine]
  have hstore : (p.account.filing r.buyer b p.account.freePlace x).lines.length = p.account.lines.length + 1 :=
    Table.length_put_new x hplace
  have hlow : (p.account.filing r.buyer b p.account.freePlace x).storeLow = p.account.storeLow := rfl
  have hclosed (hfull : 48 ≤ v.lines.length + 1) : ((p.account.filing r.buyer b p.account.freePlace x).closes .linesFull
      (p.account.invoiceFor r.buyer b)).Agrees none :=
    hfiled.close hinvoice hs (by simp [Invoice.withLine])
  generalize p.account.filing r.buyer b p.account.freePlace x = filed at *
  have hwith : (if Config.maxInvoiceLines ≤ filed.lineCount (p.account.invoiceFor r.buyer b) then
      closeInvoice .linesFull { p with account := filed } (p.account.invoiceFor r.buyer b) else { p with account := filed }) =
      p.withFiled filed (p.account.invoiceFor r.buyer b) (v.lines.length + 1) := by
    rw [hafter]
    exact ite_congr rfl (fun hfull => startCheck_eq (hclosed hfull)) fun _ => rfl
  refine congrArg (fun q => (warnStoreLow q).toClock c (.grant p.account.freePlace)) hwith |>.trans ?_
  obtain ⟨hqlines, hqlow, hqlink⟩ :
      (p.withFiled filed (p.account.invoiceFor r.buyer b) (v.lines.length + 1)).account.lines = filed.lines ∧
      (p.withFiled filed (p.account.invoiceFor r.buyer b) (v.lines.length + 1)).account.storeLow = filed.storeLow ∧
      ∀ role, (p.withFiled filed (p.account.invoiceFor r.buyer b) (v.lines.length + 1)).linkOf role = p.linkOf role := by
    unfold Part.withFiled
    split
    · next hfull =>
      obtain ⟨hl, hf⟩ := Part.startsSending_leaves
        (p := { p with account := filed.closes .linesFull (p.account.invoiceFor r.buyer b) }) (hclosed hfull)
      exact ⟨hl, hf, Part.linkOf_startsSending _⟩
    · exact ⟨rfl, rfl, fun _ => rfl⟩
  have hfree : (p.withFiled filed (p.account.invoiceFor r.buyer b) (v.lines.length + 1)).account.freeLines =
      4096 - (p.account.lines.length + 1) := by
    rw [Account.freeLines, hqlines, hstore]
    rfl
  rw [warnStoreLow_eq hqlink hfree (by rw [Account.crossesStoreLow, hfree, hqlow, hlow])]
  rfl

/-! ### The refusal (R115) -/

theorem takeReservation_refused {c : ClockId} {r : Reservation} {cause : Cause}
    (h : p.account.refusesReservation r = some cause) : takeReservation c r p = p.toClock c (.refuse cause) := by
  rw [takeReservation, h]

theorem takeReservation_granted {c : ClockId} {r : Reservation} (h : p.account.refusesReservation r = none)
    (hb : Table.find p.account.buyers r.buyer = some b) : takeReservation c r p = grantReservation c r b p := by
  rw [takeReservation, h, Part.buyer, hb]

/-- The first condition met, for a buyer that has a record. -/
theorem Account.refusesReservation_eq {r : Reservation} (hb : Table.find a.buyers r.buyer = some b) :
    a.refusesReservation r =
      if b.blocked then some .blocked
      else if b.limit < b.exposure + (a.figures r).total then some .credit
      else if 4096 ≤ a.lines.length then some .storeFull
      else if b.openInvoice = none ∧ 256 ≤ a.invoices.length then some .noInvoice
      else none := by
  rw [Account.refusesReservation, hb, Nat.add_comm]
  rfl

end

/-- A hand-over taken from a clock's channel, and the clock's answer. -/
theorem Part.toClock_taken (p : Part) (hs : PerClock Channels) (c : ClockId) (rest : List ToAccount) (m : ToClock) :
    ({ p with channels := hs.upd c (fun h => { h with clockToAccount := rest }) } : Part).toClock c m =
      { p with channels := hs.upd c (fun h => { h with
        clockToAccount := rest, accountToClock := h.accountToClock ++ [m] }) } := by
  simp [Part.toClock, Part.updChannels]

theorem Part.withFiled_taken (p : Part) (c : ClockId) (rest : List ToAccount) (filed : Account) (n : InvoiceNumber)
    (count free : Nat) (warns : Bool) (m : ToClock) :
    ((({ p with channels := p.channels.upd c (fun h => { h with clockToAccount := rest }) } : Part).withFiled filed n count).warned
        p free warns).toClock c m =
      { (p.withFiled filed n count).warned p free warns with
        channels := p.channels.upd c (fun h => { h with
          clockToAccount := rest, accountToClock := h.accountToClock ++ [m] }) } := by
  rw [Part.withFiled_channels]
  exact Part.toClock_taken ((p.withFiled filed n count).warned p free warns) p.channels c rest m

/-- Settles O54: the conditions of R115 one after another, and the grant as the account, the sending and the warning that it makes. -/
theorem reservationJudged : Obligations.ReservationJudged := by
  intro c r rest s hpin first htables hok a f refused
  let p : Part := { s.part with channels := s.part.channels.upd c (fun h => { h with clockToAccount := rest }) }
  have ht : p.account.TablesOk := (Part.tablesOk_iff.mp htables).2
  have hrefused {cause : Cause} (h : a.refusesReservation r = some cause) : refused cause :=
    takeFromClock_gives (g := takeReservation c r) hpin first rfl
      ((takeReservation_refused (p := p) h).trans (Part.toClock_taken s.part s.part.channels c rest _))
  refine ⟨fun hb => hrefused ?_, fun b hb => ?_⟩
  · have hb : Table.find a.buyers r.buyer = none := hb
    rw [Account.refusesReservation, hb]
  have hb : Table.find a.buyers r.buyer = some b := hb
  have hjudge := Account.refusesReservation_eq hb
  refine ⟨fun hblocked => hrefused ?_, fun hblocked hlimit => hrefused ?_, fun hblocked hlimit => ?_⟩
  · rw [hjudge, if_pos hblocked]
  · rw [hjudge, hblocked, if_neg Bool.false_ne_true, if_pos hlimit]
  rw [hblocked, if_neg Bool.false_ne_true, if_neg (not_lt.mpr hlimit)] at hjudge
  refine ⟨fun hfull => hrefused ?_, fun hroom ho hfull => hrefused ?_, ?_⟩
  · rw [hjudge, if_pos hfull]
  · rw [hjudge, if_neg (not_le.mpr hroom), if_pos ⟨ho, hfull⟩]
  intro hroom hinv n pool v hv hvn
  have hfit : b.openInvoice = none → a.invoices.length < Config.maxInvoices := fun ho => hinv.resolve_left (absurd ho)
  rw [if_neg (not_le.mpr hroom), if_neg fun h => absurd (hfit h.1) (not_lt.mpr h.2)] at hjudge
  obtain ⟨hone, htop⟩ := Account.freePlace_bounds (a := a) hroom
  refine ⟨a.freePlace, a.sequenceFor r.buyer b, hone, htop, Account.freePlace_free ht, fun i hi hne => ?_, ?_, ?_⟩
  · exact Table.find_of_lt_lowestFree a.lines (Nat.one_le_iff_ne_zero.mpr hne) (List.mem_range.mp hi)
  · split
    · next ho => exact Account.sequenceFor_firstFree ho (hfit ho)
    · next ho => rw [Account.sequenceFor, if_neg ho]
  · refine takeFromClock_gives (g := takeReservation c r) hpin first rfl ((takeReservation_granted (p := p) hjudge hb).trans
      ((grantReservation_eq (v := v) ht hok hb hfit hv hvn).trans ?_))
    exact Part.withFiled_taken s.part c rest _ _ _ _ _ _

end Sys2Proof.Machine
end

section
/-! The desks of a link: its region map read both ways (R105), and what its loss leaves of them (R106, R112, R151). -/

namespace Sys2Proof.Machine

/-! ### The two translations (R105) -/

section
variable {r : Region} {m : List Region} {d i : Nat}

theorem Region.maps_iff : r.maps i = true ↔ r.base ≤ i ∧ i < r.base + r.size ∧ i < Config.deskCount := by
  simp [Region.maps, and_assoc]

/-- Two regions that map the same index meet. -/
theorem Region.meets_of_maps {q : Region} (hr : r.maps i = true) (hq : q.maps i = true) : r.meets q = true := by
  rw [Region.maps_iff] at hr hq
  exact decide_eq_true (by omega)

/-- A desk index that has a local desk is mapped by a region of the map. -/
theorem maps_of_hallToLocal (h : hallToLocal m i = some d) : ∃ r ∈ m, r.maps i = true := by
  induction m generalizing d with
  | nil => cases h
  | cons r rest ih =>
    rw [hallToLocal] at h
    split at h
    · next hr => exact ⟨r, List.mem_cons_self, hr⟩
    · obtain ⟨d', hd, -⟩ := Option.map_eq_some_iff.mp h
      obtain ⟨q, hq, hi⟩ := ih hd
      exact ⟨q, List.mem_cons_of_mem r hq, hi⟩

theorem localToHall_of_hallToLocal (h : hallToLocal m i = some d) : localToHall m d = some i := by
  induction m generalizing d with
  | nil => cases h
  | cons r rest ih =>
    rw [hallToLocal] at h
    split at h
    · next hr =>
      obtain rfl := Option.some.inj h
      obtain ⟨hlow, hhigh, htop⟩ := Region.maps_iff.mp hr
      have hback : r.base + (i - r.base) = i := by omega
      rw [localToHall, if_pos (by omega), hback, if_pos htop]
    · obtain ⟨d', hd, rfl⟩ := Option.map_eq_some_iff.mp h
      rw [localToHall, if_neg (by omega), Nat.add_sub_cancel]
      exact ih hd

/-- In a map without overlaps the first region that maps an index is the only one. -/
theorem hallToLocal_of_localToHall (hm : selfOverlap m = false) (h : localToHall m d = some i) : hallToLocal m i = some d := by
  induction m generalizing d with
  | nil => cases h
  | cons r rest ih =>
    rw [selfOverlap, Bool.or_eq_false_iff] at hm
    obtain ⟨halone, hrest⟩ := hm
    rw [localToHall] at h
    split at h
    · next hd =>
      split at h
      · next htop =>
        obtain rfl := Option.some.inj h
        have hr : r.maps (r.base + d) = true := Region.maps_iff.mpr ⟨by omega, by omega, htop⟩
        rw [hallToLocal, if_pos hr, Nat.add_sub_cancel_left]
      · cases h
    · next hd =>
      have hlocal := ih hrest h
      have hr : ¬ r.maps i = true := fun hr => by
        obtain ⟨q, hq, hi⟩ := maps_of_hallToLocal hlocal
        exact List.any_eq_false.mp halone q hq (Region.meets_of_maps hr hi)
      rw [hallToLocal, if_neg hr, hlocal, Option.map_some, Nat.sub_add_cancel (by omega)]

end

/-- Settles O12, region by region. -/
theorem deskTranslationsInverse : Obligations.DeskTranslationsInverse :=
  fun _ hm => ⟨fun _ _ h => ⟨localToHall_lt h, hallToLocal_of_localToHall hm h⟩, fun _ _ => localToHall_of_hallToLocal⟩

/-! ### A message to all clocks -/

theorem Part.toAllClocks_eq (p : Part) (m : ToClock) : p.toAllClocks m =
    { p with channels := p.channels.map (fun h => { h with accountToClock := h.accountToClock ++ [m] }) } := rfl

theorem PerClock.map_map {α β γ : Type} (v : PerClock α) (f : α → β) (g : β → γ) :
    (v.map f).map g = v.map (fun a => g (f a)) := rfl

@[simp] theorem PerClock.map_id {α : Type} (v : PerClock α) : v.map (fun a => a) = v := rfl

/-- A desk unbound, and the end request for its buyer. -/
theorem sendEndRequests_unbindDesk (i u : Nat) (t : Option DeskTarget) (p : Part) :
    sendEndRequests u t (unbindDesk i u p) = { p with
      account := { p.account with
        desks := p.account.desks.del i,
        buyers := p.account.buyers.modify u (fun b => { b with desk := none, orderMark := false }) },
      channels := p.channels.map (fun h => { h with accountToClock := h.accountToClock ++ [.endOrders u t] }) } := by
  simp only [sendEndRequests, Part.toAllClocks_eq, unbindDesk, Part.updBuyer, Part.updAccount, Table.modify_modify]

/-! ### A DESK GROUP link is lost (R112, R151) -/

section
variable {l : LinkId} {m : List Region}

/-- Whether one of the desks is a mapped desk of the buyer. -/
def leavesDesk (m : List Region) (es : Table Binding) (u : Nat) : Bool :=
  es.any (fun e => decide (e.2.buyer = u) && (hallToLocal m e.1).isSome)

/-- The end requests for the buyers of the mapped desks. -/
def lostEnds (l : LinkId) (m : List Region) (es : Table Binding) : List ToClock :=
  es.filterMap (fun e => (hallToLocal m e.1).map (fun d => .endOrders e.2.buyer (some ⟨l, d⟩)))

/-- Whether one of the desks is the desk of an index, and mapped. -/
def losesDesk (m : List Region) (es : Table Binding) (i : Nat) : Bool :=
  es.any (fun e => decide (e.1 = i) && (hallToLocal m e.1).isSome)

/-- The part once the mapped ones of the desks `es` are unbound. -/
def Part.withoutDesks (p : Part) (l : LinkId) (m : List Region) (es : Table Binding) : Part := { p with
  account := { p.account with
    desks := p.account.desks.filter (fun e => !losesDesk m es e.1),
    buyers := p.account.buyers.map (fun e =>
      if leavesDesk m es e.1 then (e.1, { e.2 with desk := none, orderMark := false }) else e) },
  channels := p.channels.map (fun h => { h with accountToClock := h.accountToClock ++ lostEnds l m es }) }

/-- A desk that the map does not hold counts for nothing. -/
theorem Part.withoutDesks_unmapped {e : Nat × Binding} (hd : hallToLocal m e.1 = none) (p : Part) (es : Table Binding) :
    p.withoutDesks l m (e :: es) = p.withoutDesks l m es := by
  have hleaves : leavesDesk m (e :: es) = leavesDesk m es := funext fun u => by simp [leavesDesk, hd]
  have hloses : losesDesk m (e :: es) = losesDesk m es := funext fun i => by simp [losesDesk, hd]
  rw [Part.withoutDesks, hleaves, hloses, lostEnds, List.filterMap_cons_none (by rw [hd]; rfl)]
  rfl

/-- A desk that the map holds is unbound before the others. -/
theorem Part.withoutDesks_mapped {e : Nat × Binding} {d : Nat} (hd : hallToLocal m e.1 = some d) (p : Part) (es : Table Binding) :
    p.withoutDesks l m (e :: es) =
      (sendEndRequests e.2.buyer (some ⟨l, d⟩) (unbindDesk e.1 e.2.buyer p)).withoutDesks l m es := by
  have hleaves (u : Nat) : leavesDesk m (e :: es) u = (decide (e.2.buyer = u) || leavesDesk m es u) := by
    simp [leavesDesk, hd]
  have hloses (i : Nat) : losesDesk m (e :: es) i = (decide (e.1 = i) || losesDesk m es i) := by simp [losesDesk, hd]
  have hends : lostEnds l m (e :: es) = .endOrders e.2.buyer (some ⟨l, d⟩) :: lostEnds l m es := by
    rw [lostEnds, List.filterMap_cons_some (by rw [hd]; rfl)]
    rfl
  have hdesks : p.account.desks.filter (fun x => !losesDesk m (e :: es) x.1) =
      (p.account.desks.del e.1).filter (fun x => !losesDesk m es x.1) := by
    rw [Table.del, List.filter_filter]
    refine List.filter_congr fun x _ => ?_
    rw [hloses]
    by_cases hx : e.1 = x.1
    · simp [hx]
    · simp [hx, Ne.symm hx]
  have hbuyers : p.account.buyers.map (fun x =>
      if leavesDesk m (e :: es) x.1 then (x.1, { x.2 with desk := none, orderMark := false }) else x) =
      (p.account.buyers.modify e.2.buyer (fun b => { b with desk := none, orderMark := false })).map (fun x =>
        if leavesDesk m es x.1 then (x.1, { x.2 with desk := none, orderMark := false }) else x) := by
    rw [Table.modify, List.map_map]
    refine List.map_congr_left fun x _ => ?_
    rw [hleaves]
    by_cases hx : x.1 = e.2.buyer
    · simp [hx]
    · simp [hx, Ne.symm hx]
  rw [sendEndRequests_unbindDesk, Part.withoutDesks, hdesks, hbuyers, hends]
  simp [Part.withoutDesks, PerClock.map_map]

theorem foldl_unbindLost_eq (es : Table Binding) (p : Part) : es.foldl (unbindLost l m) p = p.withoutDesks l m es := by
  induction es generalizing p with
  | nil => simp [Part.withoutDesks, leavesDesk, losesDesk, lostEnds]
  | cons e rest ih =>
    rw [List.foldl_cons, ih, unbindLost]
    cases hd : hallToLocal m e.1 with
    | none => rw [Part.withoutDesks_unmapped hd]
    | some d => rw [Part.withoutDesks_mapped hd]

/-- Of its own desks a table keeps those that the map does not hold. -/
theorem filter_losesDesk (m : List Region) (es : Table Binding) :
    es.filter (fun e => !losesDesk m es e.1) = es.filter (fun e => (hallToLocal m e.1).isNone) := by
  refine List.filter_congr fun e he => ?_
  have hloses : losesDesk m es e.1 = (hallToLocal m e.1).isSome := by
    rw [losesDesk, Bool.eq_iff_iff, List.any_eq_true]
    refine ⟨fun ⟨x, _, hx⟩ => ?_, fun h => ⟨e, he, by simpa using h⟩⟩
    obtain ⟨hxe, hm⟩ := Bool.and_eq_true_iff.mp hx
    exact of_decide_eq_true hxe ▸ hm
  rw [hloses, Option.not_isSome]

theorem deskGroupLost_eq {p : Part} {g : DeskGroup} (hg : p.account.groups.get l = some g) : deskGroupLost l p =
    ((p.withoutDesks l g.map p.account.desks).updAccount (fun a => { a with groups := a.groups.upd l (fun _ => none) })).updDisplay
      (fun d => { d with sets := d.sets.upd l (fun _ => none) }) := by
  rw [deskGroupLost, hg]
  exact congrArg (fun q : Part => (q.updAccount _).updDisplay _) (foldl_unbindLost_eq p.account.desks p)

end

theorem loseLink_role {l : LinkId} {r : Role} {p : Part} (h : (p.links.get l).role = some r) :
    loseLink l p = roleLost l r (p.updLink l Link.lost) := by
  rw [loseLink, h]

theorem lossStep_armed {l : LinkId} {t : Nat} {p : Part} (h : (p.links.get l).lossTimer = some t) :
    lossStep l p = loseLink l (p.reach t) := by
  rw [lossStep, h]

/-- Settles O17, by the fold over the bound desks. -/
theorem lostDeskGroupUnbinds : Obligations.LostDeskGroupUnbinds := by
  intro l t g s hpin htimer hrole hg
  have hlost : lossStep l s.part = deskGroupLost l ((s.part.reach t).updLink l Link.lost) :=
    (lossStep_armed htimer).trans (loseLink_role (p := s.part.reach t) hrole)
  have hdesks := filter_losesDesk g.map s.part.account.desks
  refine (run_high hpin _).trans ?_
  rw [hlost, deskGroupLost_eq (p := (s.part.reach t).updLink l Link.lost) hg, ← hdesks]
  rfl

end Sys2Proof.Machine
end

section
/-! What the operations on buyers and desks do, each as one equation, and the messages of settlement to the buyer table
(R99 to R102). -/

namespace Sys2Proof.Machine

section
variable {p q t : Part} {l : LinkId} {i u : Nat} {b : Buyer} {m : Message}

/-! ### What the clocks and the desks are told -/

@[simp] theorem Link.told_state (k : Link) (o : OutMsg) : (k.told o).state = k.state := by
  unfold Link.told
  split
  · simp
  · rfl

/-- A message to a desk leaves the states of the links as they are. -/
theorem Part.deskTold_state (p : Part) (links : PerLink Link) (i : Nat) (body : Nat → OutBody) (n : LinkId) :
    ((p.deskTold links i body).get n).state = (links.get n).state := by
  unfold Part.deskTold
  split
  · rfl
  · rw [PerLink.get_upd]
    split <;> simp

/-- LOGGED OUT goes to the desk's target, which is that of another part `t`. -/
theorem tellLoggedOut_eq (h : p.deskTarget i = t.deskTarget i) (reason : LogoutReason) (u : Nat) :
    tellLoggedOut i reason u none p = { p with links := t.deskTold p.links i (fun d => .loggedOut d reason u) } := by
  rw [tellLoggedOut, Part.deskTold, h]
  cases t.deskTarget i <;> rfl

theorem Part.toClocks_nil (p : Part) :
    { p with channels := p.channels.map (fun h => { h with accountToClock := h.accountToClock ++ [] }) } = p := by
  simp

/-- The notices that a buyer's record calls for. -/
def Buyer.notices (b : Buyer) (u : Nat) (target : Option DeskTarget) : List ToClock :=
  if b.orderMark then [.notice ⟨u, b.blocked, b.point, b.members, target⟩] else []

/-- R103: the clocks are told of a buyer whose order mark is yes. -/
theorem sendNotices_eq (hb : p.buyer u = some b) (target : Option DeskTarget) : sendNotices u target p = { p with
    channels := p.channels.map (fun h => { h with accountToClock := h.accountToClock ++ b.notices u target }) } := by
  rw [sendNotices, hb, Buyer.notices]
  dsimp only
  split
  · rfl
  · simp

theorem sendEndRequests_eq (u : Nat) (target : Option DeskTarget) (p : Part) : sendEndRequests u target p = { p with
    account := { p.account with buyers := p.account.buyers.modify u (fun b => { b with orderMark := false }) },
    channels := p.channels.map (fun h => { h with accountToClock := h.accountToClock ++ [.endOrders u target] }) } := rfl

/-- R95: a buyer is logged out of a desk, whose target is that of another part `t`. -/
theorem logOut_eq (h : p.deskTarget i = t.deskTarget i) (u : Nat) (reason : LogoutReason) : logOut i u reason none p = { p with
    links := t.deskTold p.links i (fun d => .loggedOut d reason u),
    account := { p.account with
      desks := p.account.desks.del i,
      buyers := p.account.buyers.modify u (fun b => { b with desk := none, orderMark := false }) },
    channels := p.channels.map (fun h => { h with accountToClock := h.accountToClock ++ [.endOrders u (t.deskTarget i)] }) } := by
  have hdesk : (unbindDesk i u p).deskTarget i = t.deskTarget i := h
  rw [logOut, tellLoggedOut_eq hdesk, sendEndRequests_eq, h]
  simp only [unbindDesk, Part.updBuyer, Part.updAccount, Table.modify_modify]

/-- A record changed and then freed. -/
theorem Table.del_modify {α : Type} (t : Table α) (k : Nat) (f : α → α) :
    Table.del (Table.modify t k f) k = Table.del t k := by
  induction t with
  | nil => rfl
  | cons e rest ih =>
    by_cases h : e.1 = k
    · simpa [Table.del, Table.modify, h] using ih
    · simpa [Table.del, Table.modify, h] using ih

/-! ### BUYER SET (R97, R99) -/

/-- The limit that a message of settlement gives, with the mark that it was lowered. -/
theorem min_maxCredit_ne (given : Nat) :
    decide (min given Config.maxCredit ≠ given) = decide (1000000000000 < given) := by
  simp only [Config.maxCredit]
  exact decide_eq_decide.mpr (by omega)

theorem takeBuyerSet_malformed (h : ¬ (1 ≤ fieldAt m.body 0 3 ∧ fieldAt m.body 0 3 ≤ 999999 ∧ fieldAt m.body 10 2 ≤ 4095)) :
    takeBuyerSet l m p = p.refuseMsg l m .malformed := if_pos (by omega)

theorem takeBuyerSet_formed (h : 1 ≤ fieldAt m.body 0 3 ∧ fieldAt m.body 0 3 ≤ 999999 ∧ fieldAt m.body 10 2 ≤ 4095) :
    takeBuyerSet l m p = match p.buyer (fieldAt m.body 0 3) with
      | some b => updateBuyer l m (fieldAt m.body 0 3) b p
      | none =>
        if p.account.buyers.length < Config.maxBuyers then createBuyer l m (fieldAt m.body 0 3) p else p.refuseMsg l m .noRoom :=
  if_neg (by omega)

/-- The record found under an id, once it has been changed. -/
theorem Part.buyer_updBuyer (hb : p.buyer u = some b) (f : Buyer → Buyer) : (p.updBuyer u f).buyer u = some (f b) := by
  have hb : Table.find p.account.buyers u = some b := hb
  simp [Part.updBuyer, Part.updAccount, Part.buyer, hb]

/-- BUYER SET for a buyer that has a record. -/
theorem updateBuyer_taken {s : State} {raw : List Byte} {r : Buyer} (h : s.Takes l .settlement .buyerSet raw)
    (hb : s.part.buyer u = some r) : updateBuyer l (parse raw) u r (s.part.taking l) = { s.part with
      links := s.part.answered l raw (.ack (.buyerSet u false (decide (1000000000000 < fieldAt (parse raw).body 3 6)) r.exposure)),
      account := { s.part.account with buyers := s.part.account.buyers.modify u (fun x =>
        x.updated (min (fieldAt (parse raw).body 3 6) Config.maxCredit) (clockSetOf (fieldAt (parse raw).body 9 1))
          (fieldAt (parse raw).body 10 2)) },
      channels := s.part.channels.map (fun x => { x with accountToClock := x.accountToClock ++
        if r.orderMark then [.notice ⟨u, r.blocked, fieldAt (parse raw).body 10 2, clockSetOf (fieldAt (parse raw).body 9 1), none⟩]
        else [] }) } := by
  simp only [updateBuyer, min_maxCredit_ne]
  rw [sendNotices_eq (Part.buyer_updBuyer (p := s.part.taking l) hb _), Part.reply_taken h.up rfl]
  rfl

theorem createBuyer_taken {s : State} {raw : List Byte} (h : s.Takes l .settlement .buyerSet raw) (u : Nat) :
    createBuyer l (parse raw) u (s.part.taking l) = { s.part with
      links := s.part.answered l raw (.ack (.buyerSet u true (decide (1000000000000 < fieldAt (parse raw).body 3 6)) 0)),
      account := { s.part.account with
        buyers := s.part.account.buyers.put u (.fresh (min (fieldAt (parse raw).body 3 6) Config.maxCredit)
          (clockSetOf (fieldAt (parse raw).body 9 1)) (fieldAt (parse raw).body 10 2)) } } := by
  simp only [createBuyer, min_maxCredit_ne]
  rw [Part.reply_taken h.up rfl]
  rfl

/-! ### BUYER REMOVE (R100) -/

theorem takeBuyerRemove_eq (hb : p.buyer (fieldAt m.body 0 3) = some b) (hl : b.lines = 0) : takeBuyerRemove l m p =
    ((dropBuyer (fieldAt m.body 0 3) b p).updAccount (fun a => { a with buyers := a.buyers.del (fieldAt m.body 0 3) })).reply l m
      (.ack .plain) := by
  simp [takeBuyerRemove, hb, hl]

/-- An unbound buyer's record is freed. -/
theorem dropBuyer_unbound (hd : b.desk = none) (u : Nat) (p : Part) :
    (dropBuyer u b p).updAccount (fun a => { a with buyers := a.buyers.del u }) = { p with
      account := { p.account with buyers := p.account.buyers.del u },
      channels := p.channels.map (fun h => { h with accountToClock := h.accountToClock ++
        if b.orderMark then [.endOrders u none] else [] }) } := by
  rw [dropBuyer, hd]
  dsimp only
  split
  · simp only [sendEndRequests_eq, Part.updAccount, Table.del_modify]
  · simp [Part.updAccount]

/-- A bound buyer is logged out of its desk, and the record is freed. -/
theorem dropBuyer_bound (hd : b.desk = some i) (h : p.deskTarget i = t.deskTarget i) (u : Nat) :
    (dropBuyer u b p).updAccount (fun a => { a with buyers := a.buyers.del u }) = { p with
      links := t.deskTold p.links i (fun d => .loggedOut d .removed u),
      account := { p.account with buyers := p.account.buyers.del u, desks := p.account.desks.del i },
      channels := p.channels.map (fun h => { h with accountToClock := h.accountToClock ++ [.endOrders u (t.deskTarget i)] }) } := by
  rw [dropBuyer, hd]
  simp only [logOut_eq h, Part.updAccount, Table.del_modify]

/-! ### BLOCK and UNBLOCK (R102) -/

theorem setBlocked_taken {s : State} {raw : List Byte} {k : Kind} {r : Buyer} (h : s.Takes l .settlement k raw) (flag : Bool)
    (hb : s.part.buyer (fieldAt (parse raw).body 0 3) = some r) : setBlocked l flag (parse raw) (s.part.taking l) = { s.part with
      links := s.part.answered l raw (.ack (.blocked (fieldAt (parse raw).body 0 3) flag)),
      account := { s.part.account with buyers :=
        if r.blocked = flag then s.part.account.buyers
        else s.part.account.buyers.modify (fieldAt (parse raw).body 0 3) (fun x => { x with blocked := flag }) },
      channels := s.part.channels.map (fun x => { x with accountToClock :=
        if r.blocked ≠ flag ∧ r.orderMark = true then
          x.accountToClock ++ [.notice ⟨fieldAt (parse raw).body 0 3, flag, r.point, r.members, none⟩]
        else x.accountToClock }) } := by
  have hfind : (s.part.taking l).buyer (fieldAt (parse raw).body 0 3) = some r := hb
  simp only [setBlocked, hfind]
  by_cases hf : r.blocked = flag
  · rw [if_pos hf, Part.reply_taken h.up rfl]
    simp only [hf, ne_eq, not_true_eq_false, false_and, if_false, if_true, PerClock.map_id]
    rfl
  · rw [if_neg hf, sendNotices_eq (Part.buyer_updBuyer hfind _), Part.reply_taken h.up rfl]
    have hnotices (x : List ToClock) :
        x ++ Buyer.notices { r with blocked := flag } (fieldAt (parse raw).body 0 3) none =
          if r.blocked ≠ flag ∧ r.orderMark = true then
            x ++ [.notice ⟨fieldAt (parse raw).body 0 3, flag, r.point, r.members, none⟩]
          else x := by
      cases r.orderMark <;> simp [hf, Buyer.notices]
    simp only [hnotices, if_neg hf]
    rfl

end

/-- Settles O50: BUYER SET, BUYER REMOVE, and BLOCK with UNBLOCK. -/
theorem buyerRecords : Obligations.BuyerRecords := by
  refine ⟨?_, ?_, ?_⟩
  · intro l raw s h b id given limit members point formed set
    refine ⟨fun hf => h.refused (takeBuyerSet_malformed hf), fun hf hb hfull => h.refused ?_, fun hf hb hroom => h.gives ?_,
      fun r hf hb => h.gives ?_⟩
    · have hb : (s.part.taking l).buyer id = none := hb
      rw [takeBuyerSet_formed hf, hb]
      exact if_neg (not_lt.mpr hfull)
    · have hb : (s.part.taking l).buyer id = none := hb
      rw [takeBuyerSet_formed hf, hb]
      refine (if_pos hroom).trans ((createBuyer_taken h id).trans ?_)
      simp only [List.append_nil, PerClock.map_id]
      rfl
    · have hfind : (s.part.taking l).buyer id = some r := hb
      rw [takeBuyerSet_formed hf, hfind]
      exact updateBuyer_taken h hb
  · intro l raw s h id a told
    refine ⟨fun hb => h.refused ?_, fun r hb => ⟨fun hl => h.refused ?_, fun hl hd => h.gives ?_, fun i hl hd => h.gives ?_⟩⟩
    · have hb : (s.part.taking l).buyer id = none := hb
      rw [takeBuyerRemove, hb]
    · have hb : (s.part.taking l).buyer id = some r := hb
      rw [takeBuyerRemove, hb]
      exact if_pos hl
    · rw [takeBuyerRemove_eq (p := s.part.taking l) hb hl, dropBuyer_unbound hd, Part.reply_taken h.up rfl]
      rfl
    · rw [takeBuyerRemove_eq (p := s.part.taking l) hb hl, dropBuyer_bound (p := s.part.taking l) (t := s.part) hd rfl,
        Part.reply_up]
      · rfl
      · exact (Part.deskTold_state _ _ _ _ _).trans ((Part.unqueued_state _ _).trans h.up)
  · intro l raw flag s k h id
    have hrun (q : Part) (hq : setBlocked l flag (parse raw) (s.part.taking l) = q) :
        exec (k.command l) s = .next (s.after q) := by
      cases flag <;> exact h.gives hq
    refine ⟨fun hb => hrun _ ?_, fun r hb => hrun _ (setBlocked_taken h flag hb)⟩
    have hnone : (s.part.taking l).buyer id = none := hb
    rw [setBlocked, hnone]
    exact Part.refuseMsg_taken h.up _ _

end Sys2Proof.Machine
end

section
/-! CREDIT LIMIT and TARIFF LOAD (R81, R82, R101). -/

namespace Sys2Proof.Machine

section
variable {l : LinkId} {raw : List Byte} {s : State} {r : Buyer}

/-! ### CREDIT LIMIT (R101) -/

theorem min_maxCredit_eq (given : Nat) :
    min given Config.maxCredit = if 1000000000000 < given then 1000000000000 else given := by
  simp only [Config.maxCredit]
  split <;> omega

theorem takeCreditLimit_taken (h : s.Takes l .settlement .creditLimit raw)
    (hb : s.part.buyer (fieldAt (parse raw).body 0 3) = some r) : takeCreditLimit l (parse raw) (s.part.taking l) = { s.part with
      links := s.part.answered l raw (.ack (.creditLimit (fieldAt (parse raw).body 0 3)
        (min (fieldAt (parse raw).body 3 6) Config.maxCredit) (decide (1000000000000 < fieldAt (parse raw).body 3 6)) r.exposure)),
      account := { s.part.account with
        buyers := s.part.account.buyers.modify (fieldAt (parse raw).body 0 3) (fun x =>
          { x with limit := min (fieldAt (parse raw).body 3 6) Config.maxCredit }) } } := by
  have hfind : (s.part.taking l).buyer (fieldAt (parse raw).body 0 3) = some r := hb
  simp only [takeCreditLimit, hfind, min_maxCredit_ne]
  rw [Part.reply_taken h.up rfl]
  rfl

/-- A buyer whose exposure is above its limit is refused CREDIT. -/
theorem Account.refusesReservation_overdrawn {a : Account} {v : Reservation} (hb : Table.find a.buyers v.buyer = some r)
    (hblocked : r.blocked = false) (hover : r.limit < r.exposure) : a.refusesReservation v = some .credit := by
  rw [Account.refusesReservation_eq hb, hblocked, if_neg Bool.false_ne_true, if_pos (Nat.lt_add_right _ hover)]

/-! ### TARIFF LOAD (R81, R82) -/

/-- Whether an item of an entry is above its bound. -/
def TariffEntry.over (e : TariffEntry) (i : TariffItem) : Prop :=
  match i with
  | .rate => 2500 < e.rate
  | .container => 9999 < e.container
  | .lineFee => 9999 < e.lineFee

theorem TariffEntry.mem_clampedItems (e : TariffEntry) (i : TariffItem) : i ∈ e.clampedItems ↔ e.over i := by
  cases i <;> simp [TariffEntry.clampedItems, TariffEntry.over]

theorem mem_clampedTariff {es : List TariffEntry} {n : Nat} {i : TariffItem} :
    (n, i) ∈ clampedTariff es ↔ ∃ e, es[n]? = some e ∧ e.over i := by
  simp only [clampedTariff, List.mem_flatMap, List.mem_map, Prod.exists, Prod.mk.injEq, List.mem_zipIdx_iff_getElem?]
  constructor
  · rintro ⟨e, k, he, j, hj, rfl, rfl⟩
    exact ⟨e, he, (e.mem_clampedItems j).mp hj⟩
  · rintro ⟨e, he, hi⟩
    exact ⟨e, n, he, i, (e.mem_clampedItems i).mpr hi, rfl, rfl⟩

theorem getElem?_readTariff (b : List Byte) (n : Nat) : (readTariff b)[n]? = if n < 16 then
    some { rate := fieldAt b (6 * n) 2, container := fieldAt b (6 * n + 2) 2, lineFee := fieldAt b (6 * n + 4) 2 } else none := by
  rw [readTariff, List.getElem?_map]
  split
  · next hn => rw [List.getElem?_range hn, Option.map_some]
  · next hn => rw [List.getElem?_eq_none (by simpa using hn), Option.map_none]

theorem takeTariffLoad_taken (h : s.Takes l .settlement .tariffLoad raw) :
    takeTariffLoad l (parse raw) (s.part.taking l) = { s.part with
      links := s.part.answered l raw (.tariffLoaded (next16 s.part.account.generation) (clampedTariff (readTariff (parse raw).body))),
      account := { s.part.account with
        tariff := some ((readTariff (parse raw).body).map TariffEntry.clamped),
        generation := next16 s.part.account.generation } } := by
  simp only [takeTariffLoad]
  rw [Part.reply_taken h.up rfl]
  rfl

end

/-- Settles O51: CREDIT LIMIT as one equation with the refusal it leads to, and TARIFF LOAD with the items it clamps. -/
theorem creditLimitAndTariff : Obligations.CreditLimitAndTariff := by
  refine ⟨fun l raw s h => ?_, fun l raw s h => ?_⟩
  · intro id given limit a
    have hlimit : min given Config.maxCredit = limit := min_maxCredit_eq given
    refine ⟨fun hb => h.refused ?_, fun r hb => ⟨h.gives ?_, fun hover hblocked v hv => ?_⟩⟩
    · have hb : (s.part.taking l).buyer id = none := hb
      rw [takeCreditLimit, hb]
    · rw [takeCreditLimit_taken h hb, hlimit]
    · have hfind : Table.find a.buyers v.buyer = some { r with limit := limit } := by
        have hb : Table.find s.part.account.buyers id = some r := hb
        simp only [a, hv, Table.find_modify_self, hb, Option.map_some]
      exact Account.refusesReservation_overdrawn hfind hblocked hover
  · intro field g es
    refine ⟨clampedTariff (readTariff (parse raw).body), (h.gives (takeTariffLoad_taken h)).trans ?_, fun n i => ?_⟩
    · rw [readTariff, List.map_map]
      rfl
    · rw [mem_clampedTariff, getElem?_readTariff]
      by_cases hn : n < 16
      · simp only [hn, if_true, true_and, Option.some.injEq, exists_eq_left']
        cases i <;> rfl
      · simp [hn]

end Sys2Proof.Machine
end

section
/-! LOGOUT, PRESENT and CANCEL ORDER of a bound desk, and the age expiry of a desk (R94, R106, R109 to R111). -/

namespace Sys2Proof.Machine

section
variable {p : Part} {l : LinkId} {m : Message} {i : Nat} {b : Binding} {g : DeskGroup} {f : Nat → Nat → Part → Part}
  {s : State} {raw : List Byte} {k : Kind}

/-! ### The checks they share -/

theorem Part.hallDesk_group (hg : p.account.groups.get l = some g) (d : Nat) : p.hallDesk l d = localToHall g.map d := by
  rw [Part.hallDesk, hg]

theorem deskOk_iff : deskOk m = true ↔ fieldAt m.body 0 2 ≤ 1023 := decide_eq_true_iff

theorem boundDesk_malformed (h : 1023 < fieldAt m.body 0 2) : boundDesk l m f p = p.refuseMsg l m .malformed := by
  rw [boundDesk, if_pos (by simp [deskOk, h])]

theorem boundDesk_unmapped (h : fieldAt m.body 0 2 ≤ 1023) (hd : p.hallDesk l (fieldAt m.body 0 2) = none) :
    boundDesk l m f p = p.refuseMsg l m .unmappedDesk := by
  rw [boundDesk, if_neg (by simp [deskOk, h]), hd]

theorem boundDesk_unbound (h : fieldAt m.body 0 2 ≤ 1023) (hd : p.hallDesk l (fieldAt m.body 0 2) = some i)
    (hb : Table.find p.account.desks i = none) : boundDesk l m f p = p.refuseMsg l m .notLoggedIn := by
  rw [boundDesk, if_neg (by simp [deskOk, h]), hd]
  simp only [hb]

theorem boundDesk_bound (h : fieldAt m.body 0 2 ≤ 1023) (hd : p.hallDesk l (fieldAt m.body 0 2) = some i)
    (hb : Table.find p.account.desks i = some b) : boundDesk l m f p = f i b.buyer p := by
  rw [boundDesk, if_neg (by simp [deskOk, h]), hd]
  simp only [hb]

/-- What the three do of a bound desk. -/
def servesDesk (l : LinkId) (k : Kind) (m : Message) : Nat → Nat → Part → Part :=
  match k with
  | .logout => takeLogout l m
  | .present => takePresent l m
  | _ => takeCancelOrder l m

/-- The three are one command up to what they do of a bound desk. -/
theorem exec_servesDesk (hk : k = .logout ∨ k = .present ∨ k = .cancelOrder) (s : State) : exec (k.command l) s =
    run s (takeMessage l k (ifWellFormed l k (fun m => boundDesk l m (servesDesk l k m)))) := by
  rcases hk with rfl | rfl | rfl <;> rfl

/-! ### What each does (R94, R109, R110) -/

theorem refreshDesk_eq (i : Nat) (p : Part) : refreshDesk i p = { p with
    account := { p.account with desks := p.account.desks.modify i (fun x => { x with activity := p.now }) } } := rfl

theorem takePresent_taken (h : s.Takes l .deskGroup k raw) (i u : Nat) :
    takePresent l (parse raw) i u (s.part.taking l) = { s.part with
      links := s.part.answered l raw (.ack (.present (fieldAt (parse raw).body 0 2) u)),
      account := { s.part.account with
        desks := s.part.account.desks.modify i (fun x => { x with activity := s.part.now }) } } := by
  rw [takePresent, refreshDesk_eq, Part.reply_taken h.up rfl]
  rfl

theorem takeCancelOrder_named {c : ClockId} (hc : p.clockFor l m = some c) (i u : Nat) : takeCancelOrder l m i u p =
    (refreshDesk i p).toClock c (.cancel u ⟨l, fieldAt m.body 0 2⟩ m.tag) := by
  rw [takeCancelOrder, hc]

theorem takeLogout_taken (h : s.Takes l .deskGroup k raw) (i u : Nat) :
    takeLogout l (parse raw) i u (s.part.taking l) = { s.part with
      links := s.part.answered l raw (.loggedOut (fieldAt (parse raw).body 0 2) .logout u),
      account := { s.part.account with
        desks := s.part.account.desks.del i,
        buyers := s.part.account.buyers.modify u (fun x => { x with desk := none, orderMark := false }) },
      channels := s.part.channels.map (fun x => { x with
        accountToClock := x.accountToClock ++ [.endOrders u (some ⟨l, fieldAt (parse raw).body 0 2⟩)] }) } := by
  simp only [takeLogout]
  rw [Part.reply_taken h.up rfl, sendEndRequests_eq]
  simp only [unbindDesk, Part.updBuyer, Part.updAccount, Table.modify_modify]
  rfl

/-! ### The age expiry (R111) -/

theorem ageStep_none (h : p.ageEnd i = none) : ageStep i p = p := by
  rw [ageStep, h]

theorem ageStep_some {t : Nat} (h : p.ageEnd i = some t) (hb : Table.find p.account.desks i = some b) :
    ageStep i p = logOut i b.buyer .aged none (p.reach t) := by
  rw [ageStep, h, hb]

theorem Part.ageEnd_unbound (hb : Table.find p.account.desks i = none) : p.ageEnd i = none := by
  rw [Part.ageEnd, hb]

theorem Part.ageEnd_bound {t : DeskTarget} (hb : Table.find p.account.desks i = some b) (ht : p.deskTarget i = some t)
    (hg : p.account.groups.get t.link = some g) : p.ageEnd i =
      if g.aging then some (b.activity + g.age * Config.minute) else none := by
  simp only [Part.ageEnd, hb, ht, hg]

/-- A message to a desk whose link is UP. -/
theorem Part.deskTold_up {t : DeskTarget} (ht : p.deskTarget i = some t) (hu : (p.links.get t.link).state = .up)
    (body : Nat → OutBody) :
    p.deskTold p.links i body = p.links.upd t.link (fun k => k.putUrgent ⟨none, body t.desk⟩) := by
  rw [Part.deskTold, ht]
  exact PerLink.upd_congr _ _ _ _ (if_pos hu)

end

/-- Settles O49: the checks the three share, each for a bound desk, and the age expiry. -/
theorem boundDesksServed : Obligations.BoundDesksServed := by
  refine ⟨fun l raw k g s h hk hg => ?_,
    fun i s hpin => ⟨fun hb => ?_, fun b target g hb ht hg => ⟨fun hold => ?_, fun hage hu => ?_⟩⟩⟩
  · intro m d a
    have hexec := exec_servesDesk (l := l) hk s
    have hmap (d : Nat) : (s.part.taking l).hallDesk l d = localToHall g.map d := Part.hallDesk_group (p := s.part.taking l) hg d
    rw [hexec]
    refine ⟨fun hd => h.refused (boundDesk_malformed hd),
      fun hd hi => h.refused (boundDesk_unmapped hd ((hmap d).trans hi)), fun i hd hi => ?_⟩
    have hdesk := (hmap d).trans hi
    refine ⟨fun hb => h.refused (boundDesk_unbound (p := s.part.taking l) hd hdesk hb), fun b hb => ?_⟩
    intro refreshed
    have hserves {q : Part} (hq : servesDesk l k m i b.buyer (s.part.taking l) = q) : exec (k.command l) s = .next (s.after q) :=
      hexec.trans (h.gives ((boundDesk_bound (p := s.part.taking l) hd hdesk hb).trans hq))
    refine ⟨?_, fun c => ?_, ?_⟩
    · rintro rfl
      exact hserves (takePresent_taken h i b.buyer)
    · rintro rfl hc
      refine hserves ((takeCancelOrder_named (Part.clockFor_eq (p := s.part.taking l) hg hc) i b.buyer).trans ?_)
      rfl
    · rintro rfl
      exact hserves (takeLogout_taken h i b.buyer)
  · exact (run_high hpin _).trans (by rw [ageStep_none (Part.ageEnd_unbound hb)])
  · refine (run_high hpin _).trans ?_
    rw [ageStep_none (by rw [Part.ageEnd_bound hb ht hg, hold]; rfl)]
  · refine (run_high hpin _).trans ?_
    have hend : s.part.ageEnd i = some (b.activity + g.age * 60000) := by
      rw [Part.ageEnd_bound hb ht hg, if_pos hage]
      rfl
    have hout := logOut_eq (p := s.part.reach (b.activity + g.age * 60000)) (t := s.part) (i := i) rfl b.buyer .aged
    rw [Part.reach_links, Part.deskTold_up ht hu, ht] at hout
    rw [ageStep_some hend hb, hout]
    rfl

end Sys2Proof.Machine
end

section
/-! LOGIN (R107, R108): its refusals, the refresh of a repeated one, and the binding that replaces and moves. -/

namespace Sys2Proof.Machine

section
variable {p q t : Part} {l : LinkId} {m : Message} {i d u : Nat} {b : Binding} {r : Buyer} {s : State} {raw : List Byte}

/-! ### Records put and freed -/

/-- A record put under a key that was just freed. -/
theorem Table.put_del {α : Type} {t : Table α} (hr : Table.rising t = true) (k : Nat) (v : α) :
    Table.put (Table.del t k) k v = Table.put t k v := by
  rw [Table.rising_iff] at hr
  induction t with
  | nil => rfl
  | cons e rest ih =>
    obtain ⟨j, w⟩ := e
    rw [List.map_cons, List.pairwise_cons] at hr
    obtain ⟨hlow, hrest⟩ := hr
    by_cases hj : j = k
    · subst hj
      have hdel : Table.del ((j, w) :: rest) j = rest := by
        rw [Table.del, List.filter_cons_of_neg (by simp), List.filter_eq_self]
        exact fun e he => decide_eq_true (ne_of_gt (hlow e.1 (List.mem_map_of_mem he)))
      rw [hdel, Table.put, if_neg (lt_irrefl j), if_pos rfl]
      cases rest with
      | nil => rfl
      | cons e rest => exact if_pos (hlow e.1 List.mem_cons_self)
    · have hdel : Table.del ((j, w) :: rest) k = (j, w) :: Table.del rest k := List.filter_cons_of_pos (decide_eq_true hj)
      rw [hdel]
      by_cases hk : k < j
      · have hall : Table.del rest k = rest := List.filter_eq_self.mpr fun e he =>
          decide_eq_true (ne_of_gt (hk.trans (hlow e.1 (List.mem_map_of_mem he))))
        rw [hall]
      · rw [Table.put, if_neg hk, if_neg (Ne.symm hj), Table.put, if_neg hk, if_neg (Ne.symm hj), ih hrest]

theorem Table.put_del_filter {α : Type} {t : Table α} (hr : Table.rising t = true) (f : Nat × α → Bool) (k : Nat) (v : α) :
    Table.put ((Table.del t k).filter f) k v = Table.put (t.filter f) k v := by
  rw [← Table.put_del (Table.rising_filter t f hr) k v, Table.del, Table.del, List.filter_filter, List.filter_filter]
  simp only [Bool.and_comm]

/-- Two records changed in turn. -/
theorem Table.modify_modify_eq_map {α : Type} (t : Table α) {j k : Nat} (h : j ≠ k) (f g : α → α) :
    Table.modify (Table.modify t j f) k g =
      t.map (fun e => if e.1 = k then (e.1, g e.2) else if some j = some e.1 then (e.1, f e.2) else e) := by
  rw [Table.modify, Table.modify, List.map_map]
  refine List.map_congr_left fun e _ => ?_
  by_cases hk : e.1 = k
  · simp [hk, Ne.symm h]
  · by_cases hj : e.1 = j
    · simp [hj, h]
    · simp [hk, hj, Ne.symm hj]

/-! ### The desk's old buyer and the buyer's old desk (R108) -/

theorem replaceOld_none (hb : Table.find p.account.desks i = none) : replaceOld i p = p := by
  rw [replaceOld, hb]

theorem replaceOld_some (hb : Table.find p.account.desks i = some b) : replaceOld i p = logOut i b.buyer .replaced none p := by
  rw [replaceOld, hb]

/-- The links once the buyer's old desk has been told MOVED. -/
def Part.movedTold (p : Part) (links : PerLink Link) (r : Buyer) (u : Nat) : PerLink Link :=
  match r.desk with
  | none => links
  | some j => p.deskTold links j (fun e => .loggedOut e .moved u)

theorem Part.movedTold_state (p : Part) (links : PerLink Link) (r : Buyer) (u : Nat) (n : LinkId) :
    ((p.movedTold links r u).get n).state = (links.get n).state := by
  unfold Part.movedTold
  split
  · rfl
  · exact p.deskTold_state _ _ _ _

/-- The buyer is bound to the desk, and leaves the one it had. -/
theorem bindDesk_releaseOld (h : ∀ j, q.deskTarget j = t.deskTarget j) (i u : Nat) (r : Buyer) :
    bindDesk i u (releaseOld r u q) = { q with
      links := t.movedTold q.links r u,
      account := { q.account with
        desks := Table.put (q.account.desks.filter (fun e => decide (r.desk ≠ some e.1))) i ⟨u, q.now⟩,
        buyers := q.account.buyers.modify u (fun x => { x with desk := some i }) } } := by
  rw [releaseOld, Part.movedTold]
  cases r.desk with
  | none => simp [bindDesk, Part.updBuyer, Part.updAccount]
  | some j =>
    have hj : (unbindDesk j u q).deskTarget j = t.deskTarget j := h j
    have hfilter : q.account.desks.del j = q.account.desks.filter (fun e => decide (some j ≠ some e.1)) := by
      simp [Table.del, eq_comm]
    dsimp only
    rw [tellLoggedOut_eq hj, ← hfilter]
    simp only [bindDesk, unbindDesk, Part.updBuyer, Part.updAccount, Table.modify_modify]

/-- The notices of a LOGIN: those of a move. -/
def Buyer.moveNotices (r : Buyer) (u : Nat) (target : DeskTarget) : List ToClock :=
  if r.desk.isSome = true ∧ r.orderMark = true then [.notice ⟨u, r.blocked, r.point, r.members, some target⟩] else []

theorem noticeIfMoved_eq (hb : p.buyer u = some { r with desk := some i }) (target : DeskTarget) :
    noticeIfMoved r u target p = { p with
      channels := p.channels.map (fun x => { x with accountToClock := x.accountToClock ++ r.moveNotices u target }) } := by
  rw [noticeIfMoved, Buyer.moveNotices]
  cases hd : r.desk with
  | none => simp
  | some j =>
    rw [Option.isSome_some, if_pos rfl, sendNotices_eq hb]
    simp [Buyer.notices]

/-- All that binds a buyer to a desk that nobody is bound to. -/
theorem bindFree_eq (h : ∀ j, q.deskTarget j = t.deskTarget j) (hb : q.buyer u = some r) (i : Nat) (target : DeskTarget) :
    noticeIfMoved r u target (bindDesk i u (releaseOld r u q)) = { q with
      links := t.movedTold q.links r u,
      account := { q.account with
        desks := Table.put (q.account.desks.filter (fun e => decide (r.desk ≠ some e.1))) i ⟨u, q.now⟩,
        buyers := q.account.buyers.modify u (fun x => { x with desk := some i }) },
      channels := q.channels.map (fun x => { x with accountToClock := x.accountToClock ++ r.moveNotices u target }) } := by
  have hbound : (bindDesk i u (releaseOld r u q)).buyer u = some { r with desk := some i } := by
    have hb : Table.find q.account.buyers u = some r := hb
    rw [bindDesk_releaseOld h, Part.buyer, Table.find_modify_self, hb, Option.map_some]
  rw [noticeIfMoved_eq hbound, bindDesk_releaseOld h]

/-! ### The checks (R107) -/

/-- What LOGIN's body must be. -/
def loginFormed (m : Message) : Prop := fieldAt m.body 0 2 ≤ 1023 ∧ 1 ≤ fieldAt m.body 2 3 ∧ fieldAt m.body 2 3 ≤ 999999

theorem takeLogin_malformed (h : ¬ loginFormed m) : takeLogin l m p = refuseDesk l m .malformed p := by
  refine if_pos ?_
  rw [loginFormed] at h
  simp only [Bool.or_eq_true, Bool.not_eq_true', deskOk, decide_eq_false_iff_not, decide_eq_true_eq, or_assoc]
  exact .inr (by omega)

theorem takeLogin_formed (hv : m.verdict .login = true) (h : loginFormed m) : takeLogin l m p =
    if p.account.hall.state ≠ .opened then refuseDesk l m .hallClosed p
    else match p.hallDesk l (fieldAt m.body 0 2) with
      | none => refuseDesk l m .unmappedDesk p
      | some i =>
        match p.buyer (fieldAt m.body 2 3) with
        | none => refuseDesk l m .unknownBuyer p
        | some b => bindLogin l m (fieldAt m.body 0 2) i (fieldAt m.body 2 3) b p := by
  refine if_neg ?_
  rw [loginFormed] at h
  simp only [hv, Bool.not_true, Bool.false_or, Bool.or_eq_true, Bool.not_eq_true', deskOk, decide_eq_false_iff_not,
    decide_eq_true_eq]
  omega

section
variable (hv : m.verdict .login = true) (h : loginFormed m)
include hv h

theorem takeLogin_closed (ho : p.account.hall.state ≠ .opened) : takeLogin l m p = refuseDesk l m .hallClosed p :=
  (takeLogin_formed hv h).trans (if_pos ho)

theorem takeLogin_unmapped (ho : p.account.hall.state = .opened) (hd : p.hallDesk l (fieldAt m.body 0 2) = none) :
    takeLogin l m p = refuseDesk l m .unmappedDesk p := by
  rw [takeLogin_formed hv h, if_neg (not_not.mpr ho), hd]

theorem takeLogin_unknown (ho : p.account.hall.state = .opened) (hd : p.hallDesk l (fieldAt m.body 0 2) = some i)
    (hr : p.buyer (fieldAt m.body 2 3) = none) : takeLogin l m p = refuseDesk l m .unknownBuyer p := by
  rw [takeLogin_formed hv h, if_neg (not_not.mpr ho), hd, hr]

theorem takeLogin_known (ho : p.account.hall.state = .opened) (hd : p.hallDesk l (fieldAt m.body 0 2) = some i)
    (hr : p.buyer (fieldAt m.body 2 3) = some r) :
    takeLogin l m p = bindLogin l m (fieldAt m.body 0 2) i (fieldAt m.body 2 3) r p := by
  rw [takeLogin_formed hv h, if_neg (not_not.mpr ho), hd, hr]

end

theorem State.Takes.verdict {r : Role} {k : Kind} (h : s.Takes l r k raw) : (parse raw).verdict k = true := h.2.2.2.2.2.2.1

theorem deskGiven_of_verdict (h : m.verdict .login = true) : deskGiven m = some (fieldAt m.body 0 2) := by
  have hl : m.body.length = 5 := by
    simp only [Message.verdict, Bool.and_eq_true] at h
    exact of_decide_eq_true h.2
  rw [deskGiven, if_pos (by omega)]

theorem refuseDesk_taken (h : s.Takes l .deskGroup .login raw) (cause : Cause) :
    refuseDesk l (parse raw) cause (s.part.taking l) = { s.part with
      links := s.part.answered l raw (.refused none cause (some (fieldAt (parse raw).body 0 2))) } := by
  rw [refuseDesk, deskGiven_of_verdict h.verdict, Part.reply_taken h.up rfl]
  rfl

/-! ### The binding (R107, R108) -/

/-- A desk has one buyer: another buyer is not the desk's old one. -/
theorem Part.BindingsOk.old_ne (h : s.part.BindingsOk) (hb : Table.find s.part.account.desks i = some b)
    (hr : Table.find s.part.account.buyers u = some r) (hd : r.desk ≠ some i) : b.buyer ≠ u := by
  rintro rfl
  have hdesk := ((Part.bindingsOk_iff.mp h).agree i b.buyer).mp (by simp [Account.boundTo, hb])
  simp only [Account.deskOf, hr, Option.map_some, Option.some.injEq] at hdesk
  exact hd hdesk

/-- A repeated LOGIN refreshes the desk. -/
theorem bindLogin_again (h : s.Takes l .deskGroup .login raw) (hd : r.desk = some i) :
    bindLogin l (parse raw) d i u r (s.part.taking l) = { s.part with
      links := s.part.answered l raw (.loggedIn d u r.members r.blocked r.point),
      account := { s.part.account with
        desks := s.part.account.desks.modify i (fun x => { x with activity := s.part.now }) } } := by
  rw [bindLogin, if_pos hd, refreshDesk_eq, Part.reply_taken h.up rfl]
  rfl

/-- A LOGIN to a desk that nobody is bound to. -/
theorem bindLogin_free (h : s.Takes l .deskGroup .login raw) (hr : s.part.buyer u = some r) (hd : r.desk ≠ some i)
    (hb : Table.find s.part.account.desks i = none) : bindLogin l (parse raw) d i u r (s.part.taking l) = { s.part with
      links := (s.part.movedTold (s.part.unqueued l) r u).upd l
        (fun k => k.putUrgent ⟨(parse raw).tag, .loggedIn d u r.members r.blocked r.point⟩),
      account := { s.part.account with
        desks := Table.put (s.part.account.desks.filter (fun e => decide (r.desk ≠ some e.1))) i ⟨u, s.part.now⟩,
        buyers := s.part.account.buyers.modify u (fun x => { x with desk := some i }) },
      channels := s.part.channels.map (fun x => { x with
        accountToClock := x.accountToClock ++ r.moveNotices u ⟨l, d⟩ }) } := by
  have hfree : replaceOld i (s.part.taking l) = s.part.taking l := replaceOld_none hb
  rw [bindLogin, if_neg hd, hfree]
  simp only [bindFree_eq (q := s.part.taking l) (t := s.part) (fun _ => rfl) hr i ⟨l, d⟩]
  rw [Part.reply_up]
  · rfl
  · exact (s.part.movedTold_state _ _ _ _).trans ((Part.unqueued_state _ _).trans h.up)

/-- A LOGIN to a desk that another buyer is bound to. -/
theorem bindLogin_bound (h : s.Takes l .deskGroup .login raw) (hr : s.part.buyer u = some r) (hd : r.desk ≠ some i)
    (hb : Table.find s.part.account.desks i = some b) (hne : b.buyer ≠ u) :
    bindLogin l (parse raw) d i u r (s.part.taking l) = { s.part with
      links := (s.part.movedTold (s.part.deskTold (s.part.unqueued l) i (fun e => .loggedOut e .replaced b.buyer)) r u).upd l
        (fun k => k.putUrgent ⟨(parse raw).tag, .loggedIn d u r.members r.blocked r.point⟩),
      account := { s.part.account with
        desks := Table.put ((s.part.account.desks.del i).filter (fun e => decide (r.desk ≠ some e.1))) i ⟨u, s.part.now⟩,
        buyers := (s.part.account.buyers.modify b.buyer (fun x => { x with desk := none, orderMark := false })).modify u
          (fun x => { x with desk := some i }) },
      channels := s.part.channels.map (fun x => { x with accountToClock :=
        x.accountToClock ++ [.endOrders b.buyer (s.part.deskTarget i)] ++ r.moveNotices u ⟨l, d⟩ }) } := by
  have hout : replaceOld i (s.part.taking l) = logOut i b.buyer .replaced none (s.part.taking l) := replaceOld_some hb
  have hstays : (logOut i b.buyer .replaced none (s.part.taking l)).buyer u = some r := by
    rw [logOut_eq (p := s.part.taking l) (t := s.part) rfl]
    have hfind := Table.find_modify_ne s.part.account.buyers
      (fun x : Buyer => { x with desk := none, orderMark := false }) (Ne.symm hne)
    exact hfind.trans hr
  have htarget (j : Nat) : (logOut i b.buyer .replaced none (s.part.taking l)).deskTarget j = s.part.deskTarget j := by
    rw [logOut_eq (p := s.part.taking l) (t := s.part) rfl]
    rfl
  rw [bindLogin, if_neg hd, hout]
  simp only [bindFree_eq htarget hstays i ⟨l, d⟩]
  rw [logOut_eq (p := s.part.taking l) (t := s.part) rfl, Part.reply_up]
  · rfl
  · exact (s.part.movedTold_state _ _ _ _).trans
      ((s.part.deskTold_state _ _ _ _).trans ((Part.unqueued_state _ _).trans h.up))

end

/-- Settles O48: the refusals in order, the refresh, and the binding to a desk that is free or taken from its old buyer. -/
theorem loginTaken : Obligations.LoginTaken := by
  intro l raw g s h hg htables hbind m d id a formed refused
  have hrise : Table.rising a.desks = true := (Part.tablesOk_iff.mp htables).2.desksRise
  have hmap : (s.part.taking l).hallDesk l d = localToHall g.map d := Part.hallDesk_group (p := s.part.taking l) hg d
  have hgives {q : Part} (hq : takeLogin l m (s.part.taking l) = q) : exec (.login l) s = .next (s.after q) :=
    hq ▸ h.run_take (takeLogin l)
  have hrefused {cause : Cause} (hq : takeLogin l m (s.part.taking l) = refuseDesk l m cause (s.part.taking l)) :
      refused cause :=
    hgives (hq.trans (refuseDesk_taken h cause))
  refine ⟨fun hf => hrefused (takeLogin_malformed hf), fun hf => ?_⟩
  refine ⟨fun hhall => hrefused (takeLogin_closed (p := s.part.taking l) h.verdict hf hhall),
    fun hhall hd => hrefused (takeLogin_unmapped (p := s.part.taking l) h.verdict hf hhall (hmap.trans hd)),
    fun i hhall hd => ⟨fun hr => hrefused (takeLogin_unknown (p := s.part.taking l) h.verdict hf hhall (hmap.trans hd) hr),
      fun r hr => ?_⟩⟩
  have hbinds {q : Part} (hq : bindLogin l m d i id r (s.part.taking l) = q) : exec (.login l) s = .next (s.after q) :=
    hgives ((takeLogin_known (p := s.part.taking l) h.verdict hf hhall (hmap.trans hd) hr).trans hq)
  refine ⟨fun hsame => hbinds (bindLogin_again h hsame), fun hother => ?_⟩
  cases hold : Table.find a.desks i with
  | none =>
    intro old ends notices replaced moved
    refine hbinds ((bindLogin_free h hr hother hold).trans ?_)
    simp only [ends, old, Option.map_none, Option.toList_none, List.append_nil, reduceCtorEq, if_false]
    rfl
  | some b =>
    intro old ends notices replaced moved
    have hne := hbind.old_ne hold hr hother
    refine hbinds ((bindLogin_bound h hr hother hold hne).trans ?_)
    rw [Table.put_del_filter hrise, Table.modify_modify_eq_map _ hne]
    rfl

end Sys2Proof.Machine
end

section
/-! CLOSE INVOICE, with the start check it makes, and SETTLED (R125, R126, R129 to R132). -/

namespace Sys2Proof.Machine

section
variable {p : Part} {a : Account} {l : LinkId} {m : Message} {n : InvoiceNumber} {v : Invoice} {r : Buyer} {u : Nat}
  {s : State} {raw : List Byte}

/-! ### The start check (R129) -/

/-- Nothing begins while an invoice is being sent, nor while the peer's WAIT is in force. -/
theorem startCheck_held (h : p.account.cursor.isSome = true ∨
    (p.linkOf .settlement = some l ∧ (p.links.get l).peerWait = true)) : startCheck p = p := by
  have hnone : p.tryBegin = none := by
    rcases h with hk | ⟨hl, hw⟩
    · obtain ⟨k, hk⟩ := Option.isSome_iff_exists.mp hk
      rw [Part.tryBegin, hk]
    · have hready : p.settlementReady = none := by simp [Part.settlementReady, hl, hw]
      rw [Part.tryBegin, hready]
      split
      · next h _ => cases h
      · rfl
  rw [startCheck, hnone]

/-! ### The link of the message taken -/

theorem Part.linkOf_taking (p : Part) (l : LinkId) (role : Role) : (p.taking l).linkOf role = p.linkOf role :=
  Part.linkOf_unqueued rfl role

theorem Part.get_taking (p : Part) (l : LinkId) : (p.taking l).links.get l = (p.links.get l).leave :=
  PerLink.get_upd_self _ _ _

theorem Part.peerWait_taking (p : Part) (l : LinkId) : ((p.taking l).links.get l).peerWait = (p.links.get l).peerWait :=
  (congrArg Link.peerWait (p.get_taking l)).trans (Link.leave_peerWait _)

/-! ### CLOSE INVOICE (R125, R126) -/

theorem takeCloseInvoice_open (hb : p.buyer (fieldAt m.body 0 3) = some r) (ho : r.openInvoice = some n)
    (hv : p.account.invoice n = some v) : takeCloseInvoice l m p =
      (startCheck { p with account := p.account.closes .requested n }).reply l m (.ack (.closed n v.lines.length v.total)) := by
  simp only [takeCloseInvoice, hb, ho, Part.closedAck, hv]
  rfl

/-- The open invoice of a buyer is closed, and the account stays in agreement. -/
theorem Account.InvoicesOk.closes {cause : CloseCause} (h : a.InvoicesOk) (hb : Table.find a.buyers u = some r)
    (ho : r.openInvoice = some n) : (a.closes cause n).Agrees none := by
  obtain ⟨hagrees, -⟩ := Account.invoicesOk_iff.mp h
  have hopen : n ∈ a.openList := List.mem_of_find?_eq_some ((hagrees.credit.find hb).opened.symm.trans ho)
  rw [hagrees.listed.opens] at hopen
  obtain ⟨v, hv, rfl⟩ := List.mem_map.mp hopen
  obtain ⟨hv, hs⟩ := List.mem_filter.mp hv
  exact (hagrees.inHand _).close ((Account.invoice_eq_some hagrees.pool.numbers).mpr ⟨hv, rfl⟩) (of_decide_eq_true hs)
    (hagrees.pool.sized v hv (by simp)).1

/-- The start check behind a message that was taken off the SETTLEMENT link. -/
theorem startCheck_taken (hl : s.part.linkOf .settlement = some l) (hw : (s.part.links.get l).peerWait = false)
    (hk : a.cursor = none) (ha : a.Agrees none) : startCheck { s.part.taking l with account := a } =
      (s.part.taking l).sending l (a.sends (32 - (s.part.links.get l).bulk.length) a.due) := by
  have hlink : ({ s.part.taking l with account := a } : Part).linkOf .settlement = some l :=
    (s.part.linkOf_taking l .settlement).trans hl
  have hgoes : (({ s.part.taking l with account := a } : Part).links.get l).peerWait = false :=
    (s.part.peerWait_taking l).trans hw
  rw [startCheck_eq ha, Part.startsSending_eq hlink hgoes hk]
  have hbulk : (s.part.taking l).links.get l = (s.part.links.get l).leave := s.part.get_taking l
  simp only [hbulk, Link.leave_bulk]
  rfl

/-- The answer to the message taken, behind the messages that have been placed in its handling. -/
theorem Part.reply_sending (hu : (p.links.get l).state = .up) (x : Account × List OutMsg) (m : Message) (b : OutBody) :
    ((p.taking l).sending l x).reply l m b = { p with
      links := (p.unqueued l).upd l (fun k => ({ k with bulk := k.bulk ++ x.2 } : Link).putUrgent ⟨m.tag, b⟩),
      account := x.1 } := by
  have hup : (((p.taking l).sending l x).links.get l).state = .up := by simp [Part.sending, Part.unqueued_state, hu]
  rw [Part.reply_up hup]
  simp [Part.sending, Part.taking]

/-! ### SETTLED (R131, R132) -/

/-- The release of an invoice, with the store-low flag cleared where 64 places are free again (R118). -/
theorem Account.settle_eq_released (a : Account) (v : Invoice) : a.settle v = { a.released v with
    storeLow := if 64 ≤ 4096 - (a.released v).lines.length then false else a.storeLow } := by
  rw [Account.settle_eq, Account.clearStoreLow]
  change (if 64 ≤ 4096 - (a.released v).lines.length then _ else _) = _
  split <;> rfl

/-- The exposure of the buyer after the release. -/
theorem Part.buyer_settle (hb : p.buyer v.number.buyer = some r) :
    (p.updAccount fun a => a.settle v).buyer v.number.buyer =
      some { r with exposure := r.exposure - v.total, lines := r.lines - v.lines.length } := by
  have hb : Table.find p.account.buyers v.number.buyer = some r := hb
  simp [Part.buyer, Part.updAccount, Account.settle_eq_released, Account.released, hb]

theorem settle_taken (hu : (s.part.links.get l).state = .up) (hb : s.part.buyer v.number.buyer = some r) :
    settle l (parse raw) v (s.part.taking l) = { s.part with
      links := s.part.answered l raw (.ack (.settled v.number v.lines.length v.number.buyer (r.exposure - v.total))),
      account := s.part.account.settle v } := by
  simp only [settle, Part.buyer_settle (p := s.part.taking l) hb]
  rw [Part.reply_taken hu rfl]
  rfl

theorem takeSettled_awaiting (hv : p.account.invoice (readInvoiceNumber m.body) = some v) (hs : v.state = .awaiting) :
    takeSettled l m p = settle l m v p := by
  rw [takeSettled, hv]
  exact if_pos hs

theorem takeSettled_refused (h : ∀ v, p.account.invoice (readInvoiceNumber m.body) = some v → v.state ≠ .awaiting) :
    takeSettled l m p = p.refuseMsg l m .unknownInvoice := by
  rw [takeSettled]
  split
  · rfl
  · next v hv => exact if_neg (h v hv)

end

/-- Settles O52: CLOSE INVOICE as the close, the sending that the start check lets begin and the ACK, SETTLED as the release and its
ACK, and the refusals of both. -/
theorem invoicesClosedAndSettled : Obligations.InvoicesClosedAndSettled := by
  refine ⟨fun l raw s h => ?_, fun l raw s h => ?_⟩
  · intro id a
    refine ⟨fun hb => h.refused ?_, fun r hb => ?_⟩
    · have hb : (s.part.taking l).buyer id = none := hb
      rw [takeCloseInvoice, hb]
    have hfind : (s.part.taking l).buyer id = some r := hb
    refine ⟨fun ho => h.refused ?_, fun n v ho hv => ?_⟩
    · rw [takeCloseInvoice, hfind]
      dsimp only
      rw [ho]
    have hopen := takeCloseInvoice_open (p := s.part.taking l) (l := l) (m := parse raw) hfind ho hv
    refine ⟨fun hheld => h.gives (hopen.trans ?_), fun hl hk hw hok => ?_⟩
    · rw [startCheck_held (l := l), Part.reply_taken h.up rfl]
      · rfl
      · exact hheld.imp_right fun ⟨hl, hw⟩ =>
          ⟨(s.part.linkOf_taking l .settlement).trans hl, (s.part.peerWait_taking l).trans hw⟩
    · have hsends := startCheck_taken (a := a.closes .requested n) hl hw hk (hok.closes hb ho)
      exact h.gives (hopen.trans ((congrArg (fun q => Part.reply q l _ _) hsends).trans (Part.reply_sending h.up _ _ _)))
  · intro b n a
    refine ⟨fun hnone => h.refused (takeSettled_refused hnone), fun v r hv hs hb => ?_⟩
    have htake := takeSettled_awaiting (p := s.part.taking l) (l := l) (m := parse raw) hv hs
    have hn : v.number = n := (Account.mem_of_invoice hv).2
    clear_value n
    subst hn
    refine ⟨(a.released v).lines, h.gives (htake.trans ?_), a.find_released v⟩
    rw [settle_taken h.up hb, Account.settle_eq_released]
    rfl

end Sys2Proof.Machine
end

section
/-! A GO on the SETTLEMENT link (R129, R130, R160): the start check, and the first CLOSED invoice sent message by message. -/

namespace Sys2Proof.Machine

section
variable {p : Part} {a : Account} {l : LinkId} {n x : InvoiceNumber} {v : Invoice} {s : State} {f : Invoice → Invoice}
  {mark : Bool} {j room : Nat} {pre post : List InvoiceNumber}

/-! ### The marker (R152, R160) -/

/-- The part once a GO has reached a link. -/
def Part.goHeard (p : Part) (l : LinkId) : Part :=
  { p with links := p.links.upd l (fun k => { k.heard p.now with peerWait := false }) }

theorem Part.get_goHeard (p : Part) (l : LinkId) :
    (p.goHeard l).links.get l = { (p.links.get l).heard p.now with peerWait := false } :=
  PerLink.get_upd_self _ _ _

/-- A link that is UP goes on to serve its role. -/
theorem Part.linkOf_goHeard (hu : (p.links.get l).state = .up) (role : Role) : (p.goHeard l).linkOf role = p.linkOf role := by
  refine Part.linkOf_congr (fun k => ?_) role
  rw [Part.goHeard, PerLink.get_upd]
  split
  · next h => simp [h, hu, Link.heard]
  · exact ⟨rfl, rfl⟩

/-- On the SETTLEMENT link a GO makes the start check. -/
theorem exec_goMarker_settlement (hpin : s.pinLow = false) (hl : s.part.linkOf .settlement = some l) :
    exec (.goMarker l) s = .next (s.after (startCheck (s.part.goHeard l))) := by
  obtain ⟨hu, hr⟩ := Part.linkOf_up hl
  have hreceives : s.part.receives l = true := by simp [Part.receives, hu]
  have hserves : (s.part.goHeard l).serves l .settlement = true := by
    simp [Part.serves, Part.get_goHeard, Link.heard, hu, hr]
  refine (run_high hpin _).trans (congrArg (fun q => Host.Outcome.next (s.after q)) (?_ : (if _ then _ else _) = _))
  rw [hreceives]
  exact if_pos hserves

/-! ### The invoices of the queue (R128, R129) -/

theorem Account.firstClosed_eq_none :
    a.firstClosed = none ↔ ∀ x ∈ a.settleQueue, ∀ y, a.invoice x = some y → y.state ≠ .closed := by
  simp [Account.firstClosed]

theorem Account.firstClosed_of_only (hq : a.settleQueue = pre ++ n :: post) (hv : a.invoice n = some v) (hs : v.state = .closed)
    (hpre : ∀ x ∈ pre, ∀ y, a.invoice x = some y → y.state ≠ .closed) : a.firstClosed = some v := by
  have hnone : ({ a with settleQueue := pre } : Account).firstClosed = none := Account.firstClosed_eq_none.mpr hpre
  have hskip : pre.findSome? (fun n => (a.invoice n).filter (fun i => decide (i.state = .closed))) = none := hnone
  rw [Account.firstClosed, hq, List.findSome?_append, hskip, Option.none_or, List.findSome?_cons, hv]
  simp [Option.filter, hs]

theorem Account.invoice_updInvoice (hf : ∀ y, (f y).number = y.number) (a : Account) (n x : InvoiceNumber) :
    (a.updInvoice n f).invoice x = if x = n then (a.invoice x).map f else a.invoice x := by
  rw [Account.invoice_of_map (a := a) (b := a.updInvoice n f) rfl (fun y => by split; exacts [hf y, rfl])]
  cases hx : a.invoice x with
  | none => simp
  | some y =>
    obtain rfl := (Account.mem_of_invoice hx).2
    rw [Option.map_some]
    split <;> rfl

/-! ### The messages of an invoice (R130) -/

/-- The cursor behind the first `j` messages of an invoice. -/
def Cursor.behind (n : InvoiceNumber) (mark : Bool) (j : Nat) : Cursor := ⟨n, decide (j = 0), j - 1, mark⟩

theorem Account.length_messagesOf (hfiled : ∀ i ∈ v.lines, (Table.find a.lines i).isSome = true) :
    (a.messagesOf v mark).length = v.lines.length + 1 := by
  rw [Account.messagesOf, List.length_cons, List.length_filterMap_eq_countP, List.countP_eq_length.mpr]
  simpa using hfiled

/-- One message placed: the invoice is finished with its last one, and else the cursor moves on. -/
theorem placeNext_behind (hu : (p.links.get l).state = .up) (hroom : (p.links.get l).bulk.length < Config.bulkCap)
    (hfiled : ∀ i ∈ v.lines, (Table.find p.account.lines i).isSome = true) (hj : j ≤ v.lines.length) :
    ∃ m, (p.account.messagesOf v mark).drop j = m :: (p.account.messagesOf v mark).drop (j + 1) ∧
      placeNext l (.behind v.number mark j) v p =
        if v.lines.length ≤ j then finishSending v.number (p.placing l m (.behind v.number mark (j + 1)))
        else p.placing l m (.behind v.number mark (j + 1)) := by
  cases j with
  | zero =>
    refine ⟨_, rfl, ?_⟩
    simp only [placeNext, Cursor.behind, decide_true, if_true, Part.postBulk_room hu hroom, Nat.le_zero, List.length_eq_zero_iff]
    rfl
  | succ i =>
    obtain ⟨y, hy⟩ := Option.isSome_iff_exists.mp (hfiled _ (List.getElem_mem hj))
    refine ⟨⟨none, .invoiceLine v.lines[i] y⟩, ?_, placeNext_line hu hroom rfl (List.getElem?_eq_getElem hj) hy⟩
    have hall : ∀ i ∈ v.lines,
        ∃ m, (Table.find p.account.lines i).map (fun y => (⟨none, .invoiceLine i y⟩ : OutMsg)) = some m := fun i hi => by
      obtain ⟨y, hy⟩ := Option.isSome_iff_exists.mp (hfiled i hi)
      exact ⟨_, by rw [hy]; rfl⟩
    rw [Account.messagesOf, List.drop_succ_cons, List.drop_succ_cons, drop_filterMap_of_some hall, drop_filterMap_of_some hall,
      List.drop_eq_getElem_cons hj, List.filterMap_cons_some (by rw [hy]; rfl)]

/-- With the bulk queue full nothing is placed. -/
theorem pump_full (turns : Nat) (hl : p.linkOf .settlement = some l) (hfull : Config.bulkCap ≤ (p.links.get l).bulk.length) :
    pump turns p = p := by
  cases turns with
  | zero => rfl
  | succ t =>
    rw [pump, hl]
    split
    · next k l' _ hl' =>
      obtain rfl := Option.some.inj hl'
      exact if_neg (not_lt.mpr hfull)
    · rfl

/-- The messages of one invoice behind the cursor, where no other invoice follows it. -/
theorem pump_behind {turns : Nat} (hl : p.linkOf .settlement = some l) (hroom : 32 - (p.links.get l).bulk.length = room)
    (ht : room ≤ turns) (hk : p.account.cursor = some (.behind v.number mark j)) (hv : p.account.invoice v.number = some v)
    (hfiled : ∀ i ∈ v.lines, (Table.find p.account.lines i).isSome = true)
    (hlast : (p.account.finished v.number).firstClosed = none) (hj : j ≤ v.lines.length) :
    pump turns p = p.sending l
      (if v.lines.length < j + room then p.account.finished v.number
        else { p.account with cursor := some (.behind v.number mark (j + room)) },
       ((p.account.messagesOf v mark).drop j).take room) := by
  induction room generalizing p j turns with
  | zero =>
    rw [pump_full turns hl (Nat.sub_eq_zero_iff_le.mp hroom), if_neg (by omega), Nat.add_zero, ← hk, List.take_zero,
      Part.sending_nil]
  | succ room ih =>
    obtain ⟨t, rfl⟩ : ∃ t, turns = t + 1 := ⟨turns - 1, by omega⟩
    have hfree : (p.links.get l).bulk.length < Config.bulkCap := by simp only [Config.bulkCap]; omega
    obtain ⟨m, hm, hplace⟩ := placeNext_behind (mark := mark) (Part.linkOf_up hl).1 hfree hfiled hj
    have hinvoice : p.account.invoice (Cursor.behind v.number mark j).invoice = some v := hv
    rw [pump, hk, hl]
    simp only [if_pos hfree, hinvoice, hplace, hm, List.take_succ_cons]
    split
    · next hdone =>
      have hrest : (p.account.messagesOf v mark).drop (j + 1) = [] :=
        List.drop_eq_nil_of_le (by rw [Account.length_messagesOf hfiled]; omega)
      have hnone : ((p.placing l m (.behind v.number mark (j + 1))).finishing v.number).tryBegin = none := by
        have hclosed : ((p.placing l m (.behind v.number mark (j + 1))).finishing v.number).account.firstClosed = none := hlast
        rw [Part.tryBegin, hclosed]
        split
        · next h => cases h
        · rfl
      rw [finishSending_eq, hnone, Option.getD_none, pump_idle t rfl, if_pos (by omega), hrest, List.take_nil]
      rfl
    · next hmore =>
      have hlink : (p.placing l m (.behind v.number mark (j + 1))).linkOf .settlement = some l :=
        (Part.linkOf_upd (p := p) (f := fun k => { k with bulk := k.bulk ++ [m] }) rfl (fun _ => rfl) (fun _ => rfl) _).trans hl
      have hleft : 32 - ((p.placing l m (.behind v.number mark (j + 1))).links.get l).bulk.length = room := by
        simp only [Part.placing, PerLink.get_upd_self, List.length_append, List.length_singleton]
        omega
      rw [ih hlink hleft (by omega) rfl hv hfiled hlast (by omega), Part.sending_placing, Nat.add_right_comm j 1 room]
      rfl

/-! ### The first CLOSED invoice (R129, R130) -/

/-- The account once the first invoice has been sent as far as there is room, and no other one is CLOSED. -/
def Account.sentFirst (a : Account) (v : Invoice) (room : Nat) : Account :=
  if v.lines.length < room then (a.beginSending v).finished v.number
  else { a.beginSending v with cursor := some (.behind v.number v.sentBefore room) }

theorem Account.sentFirst_fits (h : v.lines.length < room) : a.sentFirst v room = (a.beginSending v).finished v.number := if_pos h

theorem Account.sentFirst_fills (h : ¬ v.lines.length < room) :
    a.sentFirst v room = { a.beginSending v with cursor := some (.behind v.number v.sentBefore room) } := if_neg h

/-- Sending changes the states of invoices and the cursor alone. -/
theorem Account.sentFirst_frame (a : Account) (v : Invoice) (room : Nat) : a.sentFirst v room =
    { a with invoices := (a.sentFirst v room).invoices, cursor := (a.sentFirst v room).cursor } := by
  unfold Account.sentFirst
  split <;> rfl

theorem Account.invoice_beginSending_ne (h : x ≠ v.number) : (a.beginSending v).invoice x = a.invoice x :=
  (Account.invoice_updInvoice (f := fun y => { y with state := .sending, sentBefore := true }) (fun _ => rfl) a v.number x).trans
    (if_neg h)

theorem Account.invoice_finished_self (hv : a.invoice n = some v) :
    (a.finished n).invoice n = some { v with state := .awaiting } :=
  (Account.invoice_updInvoice (f := fun y => { y with state := .awaiting }) (fun _ => rfl) a n n).trans
    (by rw [if_pos rfl, hv, Option.map_some])

theorem Account.invoice_finished_ne (h : x ≠ n) : (a.finished n).invoice x = a.invoice x :=
  (Account.invoice_updInvoice (f := fun y => { y with state := .awaiting }) (fun _ => rfl) a n x).trans (if_neg h)

theorem Account.invoice_sentFirst_ne (h : x ≠ v.number) : (a.sentFirst v room).invoice x = a.invoice x := by
  unfold Account.sentFirst
  split
  · exact (Account.invoice_finished_ne h).trans (Account.invoice_beginSending_ne h)
  · exact Account.invoice_beginSending_ne h

/-- The start check, where the invoice that begins is the only one that is CLOSED. -/
theorem startCheck_sendsFirst (hl : p.linkOf .settlement = some l) (hw : (p.links.get l).peerWait = false)
    (hk : p.account.cursor = none) (hroom : 32 - (p.links.get l).bulk.length = room) (hfirst : p.account.firstClosed = some v)
    (hv : p.account.invoice v.number = some v) (hfiled : ∀ i ∈ v.lines, (Table.find p.account.lines i).isSome = true)
    (hlast : ((p.account.beginSending v).finished v.number).firstClosed = none) : startCheck p =
      p.sending l (p.account.sentFirst v room, (p.account.messagesOf v v.sentBefore).take room) := by
  have hready : p.settlementReady = some l := by simp [Part.settlementReady, hl, hw]
  have hbegin : p.tryBegin = some { p with account := p.account.beginSending v } := by
    rw [Part.tryBegin, hk, hready, hfirst]
    rfl
  have hpump := pump_behind (p := { p with account := p.account.beginSending v }) (turns := 32) (mark := v.sentBefore) (j := 0)
    (v := { v with state := .sending, sentBefore := true }) hl hroom (by omega) rfl (Account.invoice_beginSending hv) hfiled hlast
    (Nat.zero_le _)
  rw [Nat.zero_add] at hpump
  rw [startCheck, hbegin]
  exact hpump

/-- Once the invoice is AWAITING and no other one is CLOSED, none is. -/
theorem Account.firstClosed_finished (hq : a.settleQueue = pre ++ v.number :: post) (hv : a.invoice v.number = some v)
    (hother : ∀ x ∈ pre ++ post, x ≠ v.number ∧ ∀ y, a.invoice x = some y → y.state ≠ .closed) :
    ((a.beginSending v).finished v.number).firstClosed = none := by
  refine Account.firstClosed_eq_none.mpr fun x hx y hy => ?_
  have hx : x ∈ pre ++ v.number :: post := hq ▸ hx
  by_cases hxv : x = v.number
  · subst hxv
    rw [Account.invoice_finished_self (Account.invoice_beginSending hv)] at hy
    obtain rfl := Option.some.inj hy
    simp
  · rw [Account.invoice_finished_ne hxv, Account.invoice_beginSending_ne hxv] at hy
    exact (hother x (by simpa [hxv] using hx)).2 y hy

end

/-- Settles O53: a GO makes the start check, and the first CLOSED invoice's messages go out one after another, by induction on the room. -/
theorem invoicesSent : Obligations.InvoicesSent := by
  refine ⟨fun l s hpin hl hok => ?_, fun l n v pre post s hpin hl hfits hk hq hv hs hother hfiled => ?_⟩
  · rw [exec_goMarker_settlement hpin hl, startCheck_eq (p := s.part.goHeard l) (Account.invoicesOk_iff.mp hok).1]
    rfl
  intro room header message
  obtain rfl := (Account.mem_of_invoice hv).2
  have hlink : (s.part.goHeard l).linkOf .settlement = some l := (Part.linkOf_goHeard (Part.linkOf_up hl).1 _).trans hl
  have hheard := s.part.get_goHeard l
  have hsent := startCheck_sendsFirst (p := s.part.goHeard l) (room := room) hlink (by rw [hheard]) hk (by rw [hheard]; rfl)
    (Account.firstClosed_of_only hq hv hs fun x hx => (hother x (List.mem_append_left _ hx)).2) hv hfiled
    (Account.firstClosed_finished hq hv hother)
  refine ⟨_, exec_goMarker_settlement hpin hl, ?_⟩
  have haccount : (startCheck (s.part.goHeard l)).account = s.part.account.sentFirst v room := congrArg Part.account hsent
  simp only [State.after, haccount]
  refine ⟨?_, s.part.account.sentFirst_frame v room, fun x hx => Account.invoice_sentFirst_ne hx, fun hall => ?_, fun hmore => ?_⟩
  · rw [hsent]
    simp only [Part.sending, Part.goHeard, PerLink.upd_upd]
    rfl
  · rw [Account.sentFirst_fits hall]
    exact ⟨rfl, Account.invoice_finished_self (Account.invoice_beginSending hv)⟩
  · rw [Account.sentFirst_fills (by omega)]
    exact ⟨rfl, Account.invoice_beginSending hv⟩

end Sys2Proof.Machine
end
